-- ==== Sys2Proof/Word.lean ====
section
/-! DEFINITION. The value types of the gmalg CORE (00_scope.md R7, R10, R12): bytes, words, shift-register cells, byte
strings, 16-byte blocks, and the two register files. -/

namespace Sys2Proof

/-- A `Byte` is 8 bits (R10). -/
abbrev Byte := BitVec 8

/-- A `Word` is 32 bits (R10). -/
abbrev Word := BitVec 32

/-- A shift-register cell, 31 bits wide (R10). That it is never 0 is an invariant of the machine (R24, R211), not part
of the type. -/
abbrev Cell := BitVec 31

/-- `Bytes`: a finite sequence of bytes, indexed from 0 (R12). -/
abbrev Bytes := List Byte

/-- Exactly 16 bytes: a block, a key, an IV, the chaining register (R7). -/
abbrev Block := Vector Byte 16

/-- The round-key schedule: exactly 32 words (R7, R20). -/
abbrev Schedule := Vector Word 32

/-- The shift register: exactly 16 cells, the oldest at index 0 (R7, R24). -/
abbrev Cells := Vector Cell 16

end Sys2Proof
end

