-- ==== Sys2Proof/Syntax.lean ====
section
/-! DEFINITION. The commands of the CORE: one constructor per row of spec/opcode_table.json (30_encoding.md R74). A
command's data operand is DIN, which is part of the transaction and not of the command word (R70). -/

namespace Sys2Proof

/-- One constructor per row of the opcode map (R74). Only two rows carry an argument in the command word (R72). -/
inductive Instr where
  /-- BC_SETKEY (OP 0x01, R140): load a block-cipher key. -/
  | bcSetkey
  /-- BC_ENC (OP 0x02, R141): encrypt one block. -/
  | bcEnc
  /-- BC_DEC (OP 0x03, R142): decrypt one block. -/
  | bcDec
  /-- MA_SETIV (OP 0x10, R165): load CHAIN. `rnd` is CMD bit 8: false, the IV is DIN; true, it is drawn from the entropy
  port (R72). -/
  | maSetiv (rnd : Bool)
  /-- ECB_ENC (OP 0x11, R170). -/
  | ecbEnc
  /-- ECB_DEC (OP 0x12, R171). -/
  | ecbDec
  /-- CBC_ENC (OP 0x13, R172). -/
  | cbcEnc
  /-- CBC_DEC (OP 0x14, R173). -/
  | cbcDec
  /-- CFB_ENC (OP 0x15, R174). -/
  | cfbEnc
  /-- CFB_DEC (OP 0x16, R175). -/
  | cfbDec
  /-- OFB_ENC (OP 0x17, R176). -/
  | ofbEnc
  /-- OFB_DEC (OP 0x18, R177). -/
  | ofbDec
  /-- KG_INIT (OP 0x20, R212): construct the generator. `klen` is the count in CMD[15:8] of DIN's key bytes (R72). -/
  | kgInit (klen : Nat)
  /-- KG_GEN (OP 0x21, R213): produce the next keystream word. -/
  | kgGen
  /-- CORE_STATUS (OP 0x30, R248): read the STATUS view. -/
  | coreStatus
  deriving DecidableEq, Repr

end Sys2Proof
end

