-- ==== Sys2Proof/WellFormed.lean ====
section
/-! DEFINITION. Which terms of `Instr` a command word can hold (30_encoding.md R71, R72). -/

namespace Sys2Proof

/-- A command that some command word encodes. The one check: KLEN is an 8-bit unsigned count (R72), so at most 255, which
is also where the assembler stops (R81). -/
def Instr.wf : Instr → Bool
  | .kgInit klen => decide (klen ≤ 255)
  | .bcSetkey | .bcEnc | .bcDec | .maSetiv _ | .ecbEnc | .ecbDec | .cbcEnc | .cbcDec | .cfbEnc | .cfbDec
  | .ofbEnc | .ofbDec | .kgGen | .coreStatus => true

end Sys2Proof
end

