-- ==== Sys2Proof/Decode.lean ====
section
/-! DEFINITION. Decoding and encoding of the 32-bit command word (30_encoding.md R71 to R78), and the opcode map as a
table of rows. A word that no row matches is refused here with `none`; the machine answers it with IllegalCommand. -/

namespace Sys2Proof

/-- OP, CMD[7:0] (R71). -/
def opField (cmd : Word) : Byte := cmd.extractLsb' 0 8

/-- ARG, CMD[15:8] (R71). -/
def argField (cmd : Word) : Byte := cmd.extractLsb' 8 8

/-- RSV, CMD[31:16] (R71). -/
def rsvField (cmd : Word) : BitVec 16 := cmd.extractLsb' 16 16

/-- The rows of R74 whose ARG must be 0, by OP; every other OP value is unassigned (R75). -/
def decodeOp (op : Byte) : Option Instr :=
  match op.toNat with
  | 0x01 => some .bcSetkey
  | 0x02 => some .bcEnc
  | 0x03 => some .bcDec
  | 0x11 => some .ecbEnc
  | 0x12 => some .ecbDec
  | 0x13 => some .cbcEnc
  | 0x14 => some .cbcDec
  | 0x15 => some .cfbEnc
  | 0x16 => some .cfbDec
  | 0x17 => some .ofbEnc
  | 0x18 => some .ofbDec
  | 0x21 => some .kgGen
  | 0x30 => some .coreStatus
  | _ => none

/-- `Decode(CMD)` of R78, total on every 32-bit word; `none` is its `Illegal`. -/
def decode (cmd : Word) : Option Instr :=
  let op := opField cmd
  let arg := argField cmd
  if rsvField cmd ≠ 0 then none
  else if op = 0x10 ∧ arg.extractLsb' 1 7 = 0 then some (.maSetiv (arg.getLsbD 0))
  else if op = 0x20 then some (.kgInit arg.toNat)
  else if arg = 0 then decodeOp op
  else none

/-- The instruction the decoder reads from a table row's word; words longer than the CORE's 32 bits do not exist (R71). -/
def decodeTableWord (nbits w : Nat) : Option Instr :=
  if w % 2 ^ nbits < 2 ^ 32 then decode (BitVec.ofNat 32 (w % 2 ^ nbits)) else none

/-- The command word with the given ARG and OP, and RSV = 0 (R71). -/
def cmdWord (arg op : Byte) : Word := 0#16 ++ arg ++ op

/-- The command word of a well-formed command (R71, R72, R74, R81). -/
def encode : Instr → Word
  | .bcSetkey => cmdWord 0 0x01
  | .bcEnc => cmdWord 0 0x02
  | .bcDec => cmdWord 0 0x03
  | .maSetiv rnd => cmdWord (if rnd then 1 else 0) 0x10
  | .ecbEnc => cmdWord 0 0x11
  | .ecbDec => cmdWord 0 0x12
  | .cbcEnc => cmdWord 0 0x13
  | .cbcDec => cmdWord 0 0x14
  | .cfbEnc => cmdWord 0 0x15
  | .cfbDec => cmdWord 0 0x16
  | .ofbEnc => cmdWord 0 0x17
  | .ofbDec => cmdWord 0 0x18
  | .kgInit klen => cmdWord (BitVec.ofNat 8 klen) 0x20
  | .kgGen => cmdWord 0 0x21
  | .coreStatus => cmdWord 0 0x30

/-- One row of the opcode map: a word matches when `(CMD & mask) = match` (R74). -/
structure OpRow where
  mnemonic : String
  value : Word
  mask : Word
  deriving DecidableEq, Repr

/-- The opcode map, row by row as R74 prints it. -/
def opcodeMap : List OpRow :=
  [⟨"BC_SETKEY", 0x00000001, 0xFFFFFFFF⟩, ⟨"BC_ENC", 0x00000002, 0xFFFFFFFF⟩, ⟨"BC_DEC", 0x00000003, 0xFFFFFFFF⟩,
   ⟨"MA_SETIV", 0x00000010, 0xFFFFFEFF⟩, ⟨"ECB_ENC", 0x00000011, 0xFFFFFFFF⟩, ⟨"ECB_DEC", 0x00000012, 0xFFFFFFFF⟩,
   ⟨"CBC_ENC", 0x00000013, 0xFFFFFFFF⟩, ⟨"CBC_DEC", 0x00000014, 0xFFFFFFFF⟩, ⟨"CFB_ENC", 0x00000015, 0xFFFFFFFF⟩,
   ⟨"CFB_DEC", 0x00000016, 0xFFFFFFFF⟩, ⟨"OFB_ENC", 0x00000017, 0xFFFFFFFF⟩, ⟨"OFB_DEC", 0x00000018, 0xFFFFFFFF⟩,
   ⟨"KG_INIT", 0x00000020, 0xFFFF00FF⟩, ⟨"KG_GEN", 0x00000021, 0xFFFFFFFF⟩, ⟨"CORE_STATUS", 0x00000030, 0xFFFFFFFF⟩]

/-- The row matches the command word (R74). -/
def OpRow.hits (r : OpRow) (cmd : Word) : Bool := cmd &&& r.mask == r.value

/-- A command's mnemonic in the opcode map (R74). -/
def Instr.mnemonic : Instr → String
  | .bcSetkey => "BC_SETKEY"
  | .bcEnc => "BC_ENC"
  | .bcDec => "BC_DEC"
  | .maSetiv _ => "MA_SETIV"
  | .ecbEnc => "ECB_ENC"
  | .ecbDec => "ECB_DEC"
  | .cbcEnc => "CBC_ENC"
  | .cbcDec => "CBC_DEC"
  | .cfbEnc => "CFB_ENC"
  | .cfbDec => "CFB_DEC"
  | .ofbEnc => "OFB_ENC"
  | .ofbDec => "OFB_DEC"
  | .kgInit _ => "KG_INIT"
  | .kgGen => "KG_GEN"
  | .coreStatus => "CORE_STATUS"

end Sys2Proof
end

