-- ==== Sys2Proof/Machine/Operands.lean ====
section
/-! DEFINITION. Operand assembly: bytes, words and blocks out of byte strings and back (00_scope.md R12, R13; 20_memory.md
R51 to R54), and the length forms the commands accept (30_encoding.md R76). All big-endian; no byte order is ever
reversed (R52, R54). -/

namespace Sys2Proof.Machine

/-- The word of four bytes, the first byte the most significant: `W32` of R13. -/
def w32 (a b c d : Byte) : Word := a ++ b ++ c ++ d

/-- The four bytes of a word, the most significant first: `B32` of R13. -/
def b32 (w : Word) : Bytes :=
  [w.extractLsb' 24 8, w.extractLsb' 16 8, w.extractLsb' 8 8, w.extractLsb' 0 8]

/-- Four words: the shape a block takes inside the cipher (R13, R133). -/
structure Quad where
  a : Word
  b : Word
  c : Word
  d : Word
  deriving DecidableEq, Repr

/-- `Words4(block)` (R13, R51). -/
def words4 (b : Block) : Quad where
  a := w32 b[0] b[1] b[2] b[3]
  b := w32 b[4] b[5] b[6] b[7]
  c := w32 b[8] b[9] b[10] b[11]
  d := w32 b[12] b[13] b[14] b[15]

/-- `Bytes4(a, b, c, d)` (R13, R51). -/
def bytes4 (a b c d : Word) : Block := ⟨(b32 a ++ b32 b ++ b32 c ++ b32 d).toArray, rfl⟩

/-- The bytes of a block, in order. -/
def blockBytes (b : Block) : Bytes := b.toList

/-- The block made of a 16-byte string. Every caller has checked that there are 16 bytes, so the filler is never read. -/
@[irreducible] def blockOf (b : Bytes) : Block := Vector.ofFn fun i => b.getD i 0

/-- `xorBytes(a, b)` on two 16-byte values: bytes at equal indices (R12, R52). -/
@[irreducible] def xorBlock (a b : Block) : Block := Vector.ofFn fun i => a[i] ^^^ b[i]

/-- `xorBytes(a, b)` on byte strings of equal length (R12, R52). -/
def xorBytes (a b : Bytes) : Bytes := List.zipWith (· ^^^ ·) a b

/-- The first `n` pieces of 16 bytes of `b`, the last possibly shorter. -/
def chunks : Nat → Bytes → List Bytes
  | 0, _ => []
  | n + 1, b => b.take 16 :: chunks n (b.drop 16)

/-- `Blocks(b)`: consecutive pieces of 16 bytes, the last possibly shorter, in order (R12). -/
def blocks (b : Bytes) : List Bytes := chunks ((b.length + 15) / 16) b

/-- `Blocks(b)` of a string whose length is a multiple of 16, as 16-byte values. -/
def wholeBlocks (b : Bytes) : List Block := (blocks b).map blockOf

/-- The bytes of several blocks, in order. -/
def joinBlocks (bs : List Block) : Bytes := bs.flatMap blockBytes

end Sys2Proof.Machine
end

