-- ==== Sys2Proof/Config.lean ====
section
/-! DEFINITION. What the spec leaves OPEN (00_scope.md R8): the longest DIN the port accepts, and the bytes the entropy
port delivers. Both are constants with no body, so nothing can be proved of their values beyond what is stated here. -/

namespace Sys2Proof

/-- How far the command port's DIN limit lies above the 32 bytes every implementation accepts. OPEN (R8, R61, D20); an
uninterpreted number. -/
opaque Config.dinHeadroom : Nat

/-- `MAX_DIN_BYTES`, the longest DIN the command port accepts: at least 32 (R61), otherwise unknown. -/
def Config.maxDinBytes : Nat := Config.dinHeadroom + 32

/-- `ENTROPY`: the 16 bytes the entropy port delivers at its n-th draw (R8, R247, I2). A FREE VALUE: uninterpreted, so no
claim can rest on it. The argument is the model's draw counter, so that every request gets a draw of its own. -/
opaque Config.entropy : Nat → Block

end Sys2Proof
end

