-- ==== Sys2Proof/Machine/State.lean ====
section
/-! DEFINITION. The state of the CORE (10_state.md R20 to R27), the command port as the model holds it (30_encoding.md
R70, R77; 20_memory.md R59), the reasons a step can stop, and the state after reset (70_reset_and_hazards.md R270). -/

namespace Sys2Proof.Machine

/-- KGST, the generator's 2-bit state (R26). 0b11 is never held, so it has no constructor. -/
inductive KgState where
  /-- 0b00, the reset value. -/
  | uninitialized
  /-- 0b01, held only inside a KG_INIT and never visible between commands. -/
  | initializing
  /-- 0b10, set by a successful KG_INIT until reset. -/
  | running
  deriving DecidableEq, Repr

/-- The eight status codes; no other is ever returned (R240, I13). -/
inductive StatusCode where
  | ok
  | invalidKeyLength
  | invalidIvLength
  | invalidBlockLength
  | malformedPadding
  | inputTooShort
  | illegalCommand
  | notReady
  deriving DecidableEq, Repr

/-- A command as the host presents it: the pair (CMD, DIN) of R70. -/
structure Command where
  cmd : Word
  din : Bytes
  deriving DecidableEq, Repr

/-- A response: the pair (STATUS_CODE, DOUT) of R70, R77. -/
structure Response where
  status : StatusCode
  dout : Bytes
  deriving DecidableEq, Repr

/-- What the outside world can do to the CORE, one event at a time. -/
inductive PortEvent where
  /-- A command arrives on the command port (R70). -/
  | command (c : Command)
  /-- Reset arrives (R270). `abandoned` is the command it interrupts, if one was executing. -/
  | reset (abandoned : Option Command)
  /-- The entropy port begins (true) or ceases (false) to answer requests (R247). -/
  | entropyPort (answers : Bool)
  deriving DecidableEq, Repr

/-- Everything the spec gives the machine (the first eight fields), and the model's own view of its ports (the rest). -/
structure State where
  /-- RK[0..31], the round-key schedule (R20). -/
  rk : Schedule
  /-- KEYED: RK holds a schedule (R21). -/
  keyed : Bool
  /-- CHAIN, the chaining register (R22). -/
  chain : Block
  /-- IVLD: CHAIN holds a defined value (R23). -/
  ivld : Bool
  /-- S[0..15], the shift register, S[0] the oldest cell (R24). -/
  cells : Cells
  /-- R1, a mixing register (R25). -/
  r1 : Word
  /-- R2, a mixing register (R25). -/
  r2 : Word
  /-- KGST, the generator's state (R26). -/
  kgst : KgState
  /-- DIN of the command being executed (R14, R50). Model's own: a latch of the command port. -/
  din : Bytes
  /-- The events still to be served, in the order the ports receive them (R59). Model's own: the outside world's input. -/
  pending : List PortEvent
  /-- Every response given so far, the oldest first (R70). Model's own: the outside world's output. -/
  responses : List Response
  /-- How many entropy draws have been made. Model's own: it numbers the free values `Config.entropy` (R247). -/
  draws : Nat
  /-- Whether the entropy port answers a request (R247, I3). Model's own. -/
  entropyAnswers : Bool
  deriving DecidableEq, Repr

/-- The reasons the machine stops with a fault. -/
inductive Fault where
  /-- Raised by MA_SETIV with RND = 1 when the entropy port does not answer: the command has no response and the machine
  no step (R247, I3: stuck). Safe: the model stops where the hardware waits. -/
  | entropyPortSilent
  deriving DecidableEq, Repr

/-- The reasons the model refuses to go on. -/
inductive Refusal where
  /-- An arm of `exec` whose instruction has no meaning yet. No arm raises it. Safe. -/
  | notModelled (mnemonic : String)
  /-- Raised by the command port for a DIN longer than MAX_DIN_BYTES: "A model has no step for such a command; it refuses
  it" (R61, I9). Safe. -/
  | dinTooLong
  deriving DecidableEq, Repr

/-- What one command, and one step, answers. -/
abbrev Result := Host.Outcome State Fault Refusal

/-- The value each cell of S holds at reset. DESIGN CHOICE (assumption 3): the spec gives no value, and R24 confines a
cell to [1, 2^31 - 1]; this is the value R206 substitutes for 0. Unsafe. -/
def resetCell : Cell := 0x7FFFFFFF

/-- The machine right after reset (R270, R271): KEYED = 0, IVLD = 0, KGST = Uninitialized. RK, CHAIN, S, R1 and R2 have
"no value" there; the values named here are DESIGN CHOICES (assumptions 1 to 4, unsafe), and the flags gate every reader.
Nothing is pending, DIN is empty, nothing has been answered, the entropy port answers and no draw has been made
(assumptions 5 to 9). -/
def State.reset : State where
  rk := Vector.replicate 32 0
  keyed := false
  chain := Vector.replicate 16 0
  ivld := false
  cells := Vector.replicate 16 resetCell
  r1 := 0
  r2 := 0
  kgst := .uninitialized
  din := []
  pending := []
  responses := []
  draws := 0
  entropyAnswers := true

end Sys2Proof.Machine
end

