-- ==== Sys2Proof/Machine/Ops.lean ====
section
/-! DEFINITION. The named operations over the state: one write per register (R14's `ST.x <- v`), the two ways a command
ends (R14's `emit` and `raise`), the entropy draw (R247), and what the ports do around a command (R59, R61, R270). The
CORE has no memory (R50) and no trap (R245): `raise` below is all that an error does. -/

namespace Sys2Proof.Machine

/-- `ST.RK[0..31] <- v` (R20). -/
def State.setRk (s : State) (v : Schedule) : State := { s with rk := v }

/-- `ST.KEYED <- v` (R21). -/
def State.setKeyed (s : State) (v : Bool) : State := { s with keyed := v }

/-- `ST.CHAIN <- v` (R22). -/
def State.setChain (s : State) (v : Block) : State := { s with chain := v }

/-- `ST.IVLD <- v` (R23). -/
def State.setIvld (s : State) (v : Bool) : State := { s with ivld := v }

/-- `ST.S[0..15] <- v` (R24). -/
def State.setCells (s : State) (v : Cells) : State := { s with cells := v }

/-- `ST.R1 <- v` (R25). -/
def State.setR1 (s : State) (v : Word) : State := { s with r1 := v }

/-- `ST.R2 <- v` (R25). -/
def State.setR2 (s : State) (v : Word) : State := { s with r2 := v }

/-- `ST.KGST <- v` (R26). -/
def State.setKgst (s : State) (v : KgState) : State := { s with kgst := v }

/-- One more entropy draw has been made. -/
def State.countDraw (s : State) : State := { s with draws := s.draws + 1 }

/-- The command's one response is given (R70). -/
def State.respond (s : State) (status : StatusCode) (dout : Bytes) : State :=
  { s with responses := s.responses ++ [⟨status, dout⟩] }

/-- `emit(dout)`: the command completes with status OK (R14, R77). The writes made to `s` before take effect. -/
def State.emit (s : State) (dout : Bytes) : Result := .next (s.respond .ok dout)

/-- `raise status`: the command ends with that status and an empty DOUT (R14, R241). Every meaning applies it to the state
the command started from, so no tentative write survives. There is no trap: the next command begins after it (R245). -/
def State.raise (s : State) (status : StatusCode) : Result := .next (s.respond status [])

/-- `draw ENTROPY` (R14, R247): the port's 16 bytes are handed on; a port that does not answer leaves the machine no
step. -/
def State.drawEntropy (s : State) (use : Block → State → Result) : Result :=
  if s.entropyAnswers then use (Config.entropy s.draws) s.countDraw else .fault .entropyPortSilent

/-- The port hands the command `c` to the CORE; `rest` is what comes after it (R59). -/
def State.accept (s : State) (c : Command) (rest : List PortEvent) : State := { s with din := c.din, pending := rest }

/-- Reset arrives (R270): every register takes its reset value. A command that was executing is abandoned: none of its
writes take effect and it has no response. What the outside world has sent, seen or switched stays as it is. -/
def State.resetArrives (s : State) (rest : List PortEvent) : State :=
  { State.reset with
    pending := rest, responses := s.responses, draws := s.draws, entropyAnswers := s.entropyAnswers }

/-- The entropy port begins or ceases to answer (R247). -/
def State.switchEntropy (s : State) (answers : Bool) (rest : List PortEvent) : State :=
  { s with entropyAnswers := answers, pending := rest }

end Sys2Proof.Machine
end

