-- ==== Sys2Proof/Machine/Primitives.lean ====
section
/-! DEFINITION. The substitution and diffusion primitives (40_primitives.md R100 to R111): pure functions of a word and the
constant tables. -/

namespace Sys2Proof.Machine

/-- `SBOX(x)` (R100). -/
def sbox (x : Byte) : Byte := sboxGrid.at x

/-- `S0(x)` (R106). -/
def s0 (x : Byte) : Byte := s0Grid.at x

/-- `S1(x)` (R107). -/
def s1 (x : Byte) : Byte := s1Grid.at x

/-- `a <<< n`, the left rotation of a word by n bits, 0 < n < 32 (R11). -/
def rotl (a : Word) (n : Nat) : Word := a <<< n ||| a >>> (32 - n)

/-- A byte table for each lane applied to the four bytes of a word, each in its place. -/
def mapLanes (f3 f2 f1 f0 : Byte → Byte) (a : Word) : Word :=
  f3 (a.extractLsb' 24 8) ++ f2 (a.extractLsb' 16 8) ++ f1 (a.extractLsb' 8 8) ++ f0 (a.extractLsb' 0 8)

/-- `τ(A)`, the block cipher's word substitution (R101). -/
def tau (a : Word) : Word := mapLanes sbox sbox sbox sbox a

/-- `L(B)`, the round diffusion (R102). -/
def diffuse (b : Word) : Word := b ^^^ rotl b 2 ^^^ rotl b 10 ^^^ rotl b 18 ^^^ rotl b 24

/-- `L′(B)`, the key-schedule diffusion (R103). -/
def diffuseKey (b : Word) : Word := b ^^^ rotl b 13 ^^^ rotl b 23

/-- `T(Z) = L(τ(Z))` (R104). -/
def roundT (z : Word) : Word := diffuse (tau z)

/-- `T′(Z) = L′(τ(Z))` (R105). -/
def keyT (z : Word) : Word := diffuseKey (tau z)

/-- `Sg(X)`, the generator's word substitution: S0, S1, S0, S1 from the most significant byte (R108). R108's worked example
for 0xFA26EB37 disagrees with its formula and with V-KG-2, and no ruling covers it: the formula is followed (assumption 19,
DEDUCED). -/
def sg (x : Word) : Word := mapLanes s0 s1 s0 s1 x

/-- `L1(X)`, the generator's first diffusion (R109). -/
def diffuse1 (x : Word) : Word := x ^^^ rotl x 2 ^^^ rotl x 10 ^^^ rotl x 18 ^^^ rotl x 24

/-- `L2(X)`, the generator's second diffusion (R110). -/
def diffuse2 (x : Word) : Word := x ^^^ rotl x 8 ^^^ rotl x 14 ^^^ rotl x 22 ^^^ rotl x 30

end Sys2Proof.Machine
end

