-- ==== Sys2Proof/Machine/BlockCipher.lean ====
section
/-! DEFINITION. The block cipher core (41_block_cipher.md R130 to R142): key expansion, the 32-round network, and the
commands BC_SETKEY, BC_ENC and BC_DEC. -/

namespace Sys2Proof.Machine

/-- The round keys made from the four key registers `K[i..i+3]` and the round constants still to come: each round appends
`K[i+4]` and moves the window up one place (R132). -/
def keyRounds : Quad → List Word → List Word
  | _, [] => []
  | k, c :: cs =>
    let next := k.a ^^^ keyT (k.b ^^^ k.c ^^^ k.d ^^^ c)
    next :: keyRounds ⟨k.b, k.c, k.d, next⟩ cs

/-- One round key per round constant. -/
theorem keyRounds_length (k : Quad) (cs : List Word) : (keyRounds k cs).length = cs.length := by
  induction cs generalizing k with
  | nil => rfl
  | cons c cs ih => simp [keyRounds, ih]

/-- The four key registers before the first round: the key's words, each with its constant (R132). -/
def keyStart (key : Block) : Quad :=
  let mk := words4 key
  ⟨mk.a ^^^ fk[0], mk.b ^^^ fk[1], mk.c ^^^ fk[2], mk.d ^^^ fk[3]⟩

/-- `KeyExpand(key)` (R132). -/
@[irreducible] def keyExpand (key : Block) : Schedule :=
  ⟨(keyRounds (keyStart key) ck).toArray, by simp [keyRounds_length, ck]⟩

/-- One round of the network on the window `X[i..i+3]`: `X[i+4]` comes in and `X[i]` drops out (R133). -/
def cryptRound (x : Quad) (rk : Word) : Quad :=
  ⟨x.b, x.c, x.d, x.a ^^^ roundT (x.b ^^^ x.c ^^^ x.d ^^^ rk)⟩

/-- `Crypt(rks, block)`: one round per round key, then the last window in reverse slot order (R133). -/
def crypt (rks : List Word) (block : Block) : Block :=
  let x := rks.foldl cryptRound (words4 block)
  bytes4 x.d x.c x.b x.a

/-- `E(b)` under the schedule `rk`: the round keys in forward order (R134). -/
def encBlock (rk : Schedule) (b : Block) : Block := crypt rk.toList b

/-- `Dc(b)` under the schedule `rk`: the same network with the round keys in reverse order (R135). -/
def decBlock (rk : Schedule) (b : Block) : Block := crypt rk.toList.reverse b

/-- BC_SETKEY (R140). CHAIN keeps its bits and is marked undefined. -/
def execBcSetkey (s : State) : Result :=
  if s.din.length ≠ 16 then s.raise .invalidKeyLength
  else (((s.setRk (keyExpand (blockOf s.din))).setKeyed true).setIvld false).emit []

/-- BC_ENC (R141). -/
def execBcEnc (s : State) : Result :=
  if s.keyed = false then s.raise .notReady
  else if s.din.length ≠ 16 then s.raise .invalidBlockLength
  else s.emit (blockBytes (encBlock s.rk (blockOf s.din)))

/-- BC_DEC (R142). -/
def execBcDec (s : State) : Result :=
  if s.keyed = false then s.raise .notReady
  else if s.din.length ≠ 16 then s.raise .invalidBlockLength
  else s.emit (blockBytes (decBlock s.rk (blockOf s.din)))

end Sys2Proof.Machine
end

