-- ==== Sys2Proof/Machine/Keystream.lean ====
section
/-! DEFINITION. The keystream generator (43_keystream.md R200 to R213): loading, the tap words, the nonlinear function, the
feedback recurrence, initialisation, warm-up and generation, and the commands KG_INIT and KG_GEN. -/

namespace Sys2Proof.Machine

/-- What a generator step reads and writes: S, R1 and R2 (R24, R25). -/
structure Gen where
  cells : Cells
  r1 : Word
  r2 : Word
  deriving DecidableEq, Repr

/-- The modulus `P31 = 2^31 - 1` (R11). -/
def p31 : Nat := 2 ^ 31 - 1

/-- `Load(k, iv)`: cell i is `k[i] ‖ D[i] ‖ iv[i]` (R201). -/
@[irreducible] def loadCells (k iv : Block) : Cells := Vector.ofFn fun i => k[i] ++ loadConst[i] ++ iv[i]

/-- `H(c) = c[30:15]`, the high 16 bits of a cell (R202). -/
def highHalf (c : Cell) : BitVec 16 := c.extractLsb' 15 16

/-- `L(c) = c[15:0]`, the low 16 bits of a cell (R202). -/
def lowHalf (c : Cell) : BitVec 16 := c.extractLsb' 0 16

/-- The four tap words (R203). -/
structure Taps where
  x0 : Word
  x1 : Word
  x2 : Word
  x3 : Word
  deriving DecidableEq, Repr

/-- `Taps(S)` (R203). -/
def taps (s : Cells) : Taps where
  x0 := highHalf s[15] ++ lowHalf s[14]
  x1 := lowHalf s[11] ++ highHalf s[9]
  x2 := lowHalf s[7] ++ highHalf s[5]
  x3 := lowHalf s[2] ++ highHalf s[0]

/-- What F returns and what it leaves in R1 and R2 (R204). -/
structure FResult where
  w : Word
  r1 : Word
  r2 : Word
  deriving DecidableEq, Repr

/-- `F(X0, X1, X2)`: W, W1 and W2 are computed from the old R1 and R2 (R204). -/
@[irreducible] def nonlinear (x0 x1 x2 r1 r2 : Word) : FResult :=
  let w1 := r1 + x1
  let w2 := r2 ^^^ x2
  { w := (x0 ^^^ r1) + r2
    r1 := sg (diffuse1 (w1.extractLsb' 0 16 ++ w2.extractLsb' 16 16))
    r2 := sg (diffuse2 (w2.extractLsb' 0 16 ++ w1.extractLsb' 16 16)) }

/-- `V(S)`, the feedback sum, exact over the natural numbers before the reduction (R205; the coefficient of S[0] is that of
90_conflicts.md C2). -/
def feedback (s : Cells) : Nat :=
  (2 ^ 15 * s[15].toNat + 2 ^ 17 * s[13].toNat + 2 ^ 21 * s[10].toNat + 2 ^ 20 * s[4].toNat
    + (1 + 2 ^ 8) * s[0].toNat) % p31

/-- The new cell for the feedback sum and `u`; a sum of 0 becomes P31 (R206). -/
@[irreducible] def newCell (s : Cells) (u : Nat) : Cell :=
  let v := (feedback s + u) % p31
  BitVec.ofNat 31 (if v = 0 then p31 else v)

/-- `S[i] <- S[i+1]` for i = 0 to 14, which drops the oldest cell, and `S[15] <- c` (R24, R206). -/
@[irreducible] def shiftIn (s : Cells) (c : Cell) : Cells := Vector.ofFn fun i => if h : i.val < 15 then s[i.val + 1] else c

/-- `StepInit(u)` (R206). -/
def stepInit (s : Cells) (u : Nat) : Cells := shiftIn s (newCell s u)

/-- `StepWork()`: StepInit with u = 0 (R207). -/
def stepWork (s : Cells) : Cells := stepInit s 0

/-- F applied to the taps of the register and the mixing registers. -/
def Gen.mix (g : Gen) : FResult :=
  let x := taps g.cells
  nonlinear x.x0 x.x1 x.x2 g.r1 g.r2

/-- One initialisation round: `u = W >> 1` is fed back (R208). -/
def Gen.initRound (g : Gen) : Gen :=
  let f := g.mix
  ⟨stepInit g.cells (f.w >>> 1).toNat, f.r1, f.r2⟩

/-- `n` initialisation rounds. -/
def Gen.initRounds : Nat → Gen → Gen
  | 0, g => g
  | n + 1, g => Gen.initRounds n g.initRound

/-- `Init(k, iv)`: load, R1 = R2 = 0, 32 rounds (R208). -/
@[irreducible] def genInit (k iv : Block) : Gen := Gen.initRounds 32 ⟨loadCells k iv, 0, 0⟩

/-- `WarmUp()`: F's result is discarded and the register steps in running mode (R209). -/
def Gen.warmUp (g : Gen) : Gen :=
  let f := g.mix
  ⟨stepWork g.cells, f.r1, f.r2⟩

/-- The generator after `NextWord()` (R210). -/
def Gen.advance (g : Gen) : Gen :=
  let f := g.mix
  ⟨stepWork g.cells, f.r1, f.r2⟩

/-- The word `NextWord()` returns: `F(X0, X1, X2) ⊕ X3`, the taps taken before the register step (R210). -/
def Gen.word (g : Gen) : Word := g.mix.w ^^^ (taps g.cells).x3

/-- The generator's part of the state. -/
def State.gen (s : State) : Gen := ⟨s.cells, s.r1, s.r2⟩

/-- S, R1 and R2 written together. -/
def State.setGen (s : State) (g : Gen) : State := ((s.setCells g.cells).setR1 g.r1).setR2 g.r2

/-- KG_INIT (R212). It is legal in every KGST and restarts a running generator; KGST's value Initializing is internal to
the command and never committed. -/
def execKgInit (klen : Nat) (s : State) : Result :=
  if klen ≠ 16 ∨ s.din.length < 16 then s.raise .invalidKeyLength
  else if s.din.length - 16 ≠ 16 then s.raise .invalidIvLength
  else
    ((s.setGen (genInit (blockOf (s.din.take 16)) (blockOf (s.din.drop 16))).warmUp).setKgst .running).emit []

/-- KG_GEN (R213): a non-empty DIN makes the command ill formed (R243), which is checked first (R242). -/
def execKgGen (s : State) : Result :=
  if s.din.length ≠ 0 then s.raise .illegalCommand
  else if s.kgst ≠ .running then s.raise .notReady
  else (s.setGen s.gen.advance).emit (b32 s.gen.word)

end Sys2Proof.Machine
end

