-- ==== Sys2Proof/Machine/Modes.lean ====
section
/-! DEFINITION. The chaining-mode adapters (42_modes.md R160 to R177): padding, the four modes over a block function, and
the commands MA_SETIV, ECB, CBC, CFB and OFB. Each chaining function returns its output and the final chaining value v,
which the command commits to CHAIN once every check has passed (R163). -/

namespace Sys2Proof.Machine

/-- `Pad(p)`: between 1 and 16 bytes, each equal to the pad length (R160). -/
def pad (p : Bytes) : Bytes :=
  let n := 16 - p.length % 16
  p ++ List.replicate n (BitVec.ofNat 8 n)

/-- `Unpad(q)`: strips the pad the final byte claims; `none` is MalformedPadding. The other pad bytes are not checked
(R161). -/
def unpad (q : Bytes) : Option Bytes :=
  match q.getLast? with
  | none => none
  | some n => if n.toNat < 1 ∨ n.toNat > 16 then none else some (q.take (q.length - n.toNat))

/-- CBC encryption over the block function `e`, from the chaining value `v` (R172). -/
def cbcEncrypt (e : Block → Block) : Block → List Block → List Block × Block
  | v, [] => ([], v)
  | v, p :: ps =>
    let c := e (xorBlock p v)
    let r := cbcEncrypt e c ps
    (c :: r.1, r.2)

/-- CBC decryption over the inverse block function `d`: the chaining value becomes the ciphertext block (R173). -/
def cbcDecrypt (d : Block → Block) : Block → List Block → List Block × Block
  | v, [] => ([], v)
  | v, c :: cs =>
    let r := cbcDecrypt d c cs
    (xorBlock (d c) v :: r.1, r.2)

/-- CFB encryption (R174). -/
def cfbEncrypt (e : Block → Block) : Block → List Block → List Block × Block
  | v, [] => ([], v)
  | v, p :: ps =>
    let c := xorBlock (e v) p
    let r := cfbEncrypt e c ps
    (c :: r.1, r.2)

/-- CFB decryption, with the block function in the encrypt direction (R175). -/
def cfbDecrypt (e : Block → Block) : Block → List Block → List Block × Block
  | v, [] => ([], v)
  | v, c :: cs =>
    let r := cfbDecrypt e c cs
    (xorBlock (e v) c :: r.1, r.2)

/-- OFB in either direction: each piece, the last possibly short, with the next keystream block (R176, R177). -/
def ofbCrypt (e : Block → Block) : Block → List Bytes → Bytes × Block
  | v, [] => ([], v)
  | v, p :: ps =>
    let k := e v
    let r := ofbCrypt e k ps
    (xorBytes p ((blockBytes k).take p.length) ++ r.1, r.2)

/-- MA_SETIV (R165). A failed MA_SETIV draws no entropy. -/
def execMaSetiv (rnd : Bool) (s : State) : Result :=
  match rnd with
  | false =>
    if s.din.length ≠ 16 then s.raise .invalidIvLength
    else ((s.setChain (blockOf s.din)).setIvld true).emit []
  | true =>
    if s.din.length ≠ 0 then s.raise .invalidIvLength
    else s.drawEntropy fun v t => ((t.setChain v).setIvld true).emit []

/-- ECB_ENC (R170). -/
def execEcbEnc (s : State) : Result :=
  if s.keyed = false then s.raise .notReady
  else s.emit (joinBlocks ((wholeBlocks (pad s.din)).map (encBlock s.rk)))

/-- ECB_DEC (R171). -/
def execEcbDec (s : State) : Result :=
  if s.keyed = false then s.raise .notReady
  else if s.din.length % 16 ≠ 0 then s.raise .invalidBlockLength
  else
    match unpad (joinBlocks ((wholeBlocks s.din).map (decBlock s.rk))) with
    | none => s.raise .malformedPadding
    | some r => s.emit r

/-- CBC_ENC (R172). -/
def execCbcEnc (s : State) : Result :=
  if s.keyed = false then s.raise .notReady
  else if s.ivld = false then s.raise .notReady
  else
    let r := cbcEncrypt (encBlock s.rk) s.chain (wholeBlocks (pad s.din))
    (s.setChain r.2).emit (joinBlocks r.1)

/-- CBC_DEC (R173). After MalformedPadding CHAIN is unchanged (R163). -/
def execCbcDec (s : State) : Result :=
  if s.keyed = false then s.raise .notReady
  else if s.ivld = false then s.raise .notReady
  else if s.din.length % 16 ≠ 0 then s.raise .invalidBlockLength
  else
    let r := cbcDecrypt (decBlock s.rk) s.chain (wholeBlocks s.din)
    match unpad (joinBlocks r.1) with
    | none => s.raise .malformedPadding
    | some p => (s.setChain r.2).emit p

/-- CFB_ENC (R174): the prefix is CHAIN at the start of the command, and CFB pads (R162). -/
def execCfbEnc (s : State) : Result :=
  if s.keyed = false then s.raise .notReady
  else if s.ivld = false then s.raise .notReady
  else
    let r := cfbEncrypt (encBlock s.rk) s.chain (wholeBlocks (pad s.din))
    (s.setChain r.2).emit (blockBytes s.chain ++ joinBlocks r.1)

/-- CFB_DEC (R175): the IV is DIN's first 16 bytes, whatever CHAIN holds. -/
def execCfbDec (s : State) : Result :=
  if s.keyed = false then s.raise .notReady
  else if s.din.length < 16 then s.raise .inputTooShort
  else if (s.din.length - 16) % 16 ≠ 0 then s.raise .invalidBlockLength
  else
    let r := cfbDecrypt (encBlock s.rk) (blockOf (s.din.take 16)) (wholeBlocks (s.din.drop 16))
    match unpad (joinBlocks r.1) with
    | none => s.raise .malformedPadding
    | some p => ((s.setChain r.2).setIvld true).emit p

/-- OFB_ENC (R176): the prefix is CHAIN at the start of the command; nothing is padded. -/
def execOfbEnc (s : State) : Result :=
  if s.keyed = false then s.raise .notReady
  else if s.ivld = false then s.raise .notReady
  else
    let r := ofbCrypt (encBlock s.rk) s.chain (blocks s.din)
    ((s.setChain r.2).setIvld true).emit (blockBytes s.chain ++ r.1)

/-- OFB_DEC (R177): the IV is DIN's first 16 bytes, whatever CHAIN holds. -/
def execOfbDec (s : State) : Result :=
  if s.keyed = false then s.raise .notReady
  else if s.din.length < 16 then s.raise .inputTooShort
  else
    let r := ofbCrypt (encBlock s.rk) (blockOf (s.din.take 16)) (blocks (s.din.drop 16))
    ((s.setChain r.2).setIvld true).emit r.1

end Sys2Proof.Machine
end

