-- ==== Sys2Proof/Machine/Flags.lean ====
section
/-! DEFINITION. The numbers of the flags and codes: KGST's encoding (10_state.md R26), the STATUS view (R27) and the status
codes (60_exceptions.md R240). The CORE has no arithmetic flags (R30). -/

namespace Sys2Proof.Machine

/-- KGST's 2-bit encoding (R26). -/
def KgState.bits : KgState → BitVec 2
  | .uninitialized => 0b00
  | .initializing => 0b01
  | .running => 0b10

/-- The 8-bit number of a status code (R240). -/
def StatusCode.code : StatusCode → Byte
  | .ok => 0x00
  | .invalidKeyLength => 0x01
  | .invalidIvLength => 0x02
  | .invalidBlockLength => 0x03
  | .malformedPadding => 0x04
  | .inputTooShort => 0x05
  | .illegalCommand => 0x80
  | .notReady => 0x81

/-- The STATUS view: KEYED is bit 0, IVLD bit 1, KGST bits 3:2, and bits 31:4 are hardwired 0 (R27). -/
def statusView (keyed ivld : Bool) (kgst : KgState) : Word :=
  0#28 ++ kgst.bits ++ BitVec.ofBool ivld ++ BitVec.ofBool keyed

end Sys2Proof.Machine
end

