-- ==== Sys2Proof/Machine/Status.lean ====
section
/-! DEFINITION. The status read (60_exceptions.md R248): the command CORE_STATUS. -/

namespace Sys2Proof.Machine

/-- CORE_STATUS (R248): the STATUS view, big-endian (R54). A non-empty DIN makes the command ill formed (R243). -/
def execCoreStatus (s : State) : Result :=
  if s.din.length ≠ 0 then s.raise .illegalCommand
  else s.emit (b32 (statusView s.keyed s.ivld s.kgst))

end Sys2Proof.Machine
end

