-- ==== Sys2Proof/Machine/Dispatch.lean ====
section
/-! DEFINITION. One arm per command, each a direct call of its meaning. -/

namespace Sys2Proof.Machine

def exec (i : Instr) (s : State) : Host.Outcome State Fault Refusal :=
  match i with
  | .bcSetkey => Sys2Proof.Machine.execBcSetkey s
  | .bcEnc => Sys2Proof.Machine.execBcEnc s
  | .bcDec => Sys2Proof.Machine.execBcDec s
  | .maSetiv rnd => Sys2Proof.Machine.execMaSetiv rnd s
  | .ecbEnc => Sys2Proof.Machine.execEcbEnc s
  | .ecbDec => Sys2Proof.Machine.execEcbDec s
  | .cbcEnc => Sys2Proof.Machine.execCbcEnc s
  | .cbcDec => Sys2Proof.Machine.execCbcDec s
  | .cfbEnc => Sys2Proof.Machine.execCfbEnc s
  | .cfbDec => Sys2Proof.Machine.execCfbDec s
  | .ofbEnc => Sys2Proof.Machine.execOfbEnc s
  | .ofbDec => Sys2Proof.Machine.execOfbDec s
  | .kgInit klen => Sys2Proof.Machine.execKgInit klen s
  | .kgGen => Sys2Proof.Machine.execKgGen s
  | .coreStatus => Sys2Proof.Machine.execCoreStatus s

end Sys2Proof.Machine
end

