-- ==== Sys2Proof/Machine/Port.lean ====
section
/-! DEFINITION. What serving one event of the ports does: a command (30_encoding.md R70, R75; 20_memory.md R59, R61), a
reset (70_reset_and_hazards.md R270), a change of the entropy port (60_exceptions.md R247). -/

namespace Sys2Proof.Machine

/-- A decoded command runs; a word the decoder refuses ends with IllegalCommand, emits nothing and changes no state (R75,
R243). -/
def runWord (s : State) (cmd : Word) : Result :=
  match decode cmd with
  | none => s.raise .illegalCommand
  | some i => exec i s

/-- One event is served to its end before the next begins (R59). A DIN longer than MAX_DIN_BYTES is refused (R61). -/
def serve (s : State) (e : PortEvent) (rest : List PortEvent) : Result :=
  match e with
  | .command c =>
    if c.din.length ≤ Config.maxDinBytes then runWord (s.accept c rest) c.cmd else .refused .dinTooLong
  | .reset _ => .next (s.resetArrives rest)
  | .entropyPort answers => .next (s.switchEntropy answers rest)

end Sys2Proof.Machine
end

