-- ==== Sys2Proof/Machine/Step.lean ====
section
/-! DEFINITION. One step: the oldest event of the ports is served (20_memory.md R59); with none, the CORE idles, which
changes no state (60_exceptions.md R251). -/

namespace Sys2Proof.Machine

/-- One step of the CORE. -/
def step (s : State) : Host.Outcome State Fault Refusal :=
  match s.pending with
  | [] => .next s
  | e :: rest => serve s e rest

/-- `s` with the command word `w` presented first on the command port, with the DIN that `s` holds, before what is pending
already: the command the next step serves. -/
def State.withFetchWord (s : State) (nbits w : Nat) : State :=
  { s with pending := .command ⟨BitVec.ofNat 32 (w % 2 ^ nbits), s.din⟩ :: s.pending }

end Sys2Proof.Machine
end

