-- ==== Sys2Proof/Machine/Assembler.lean ====
section
/-! DEFINITION. The spec's command syntax (30_encoding.md R80, R81) as data: one line and the command (CMD, DIN) it expands
to. The hexadecimal text of a line is a convenience outside the CORE (00_scope.md R5 (c)). -/

namespace Sys2Proof.Machine

/-- One line of the command syntax (R80), its hexadecimal operands already read as bytes. -/
inductive AsmLine where
  /-- `KG_INIT <keyhex>, <ivhex>`. -/
  | kgInit (key iv : Bytes)
  /-- `MA_SETIV RND`. -/
  | maSetivRnd
  /-- `MA_SETIV <hex>`. -/
  | maSetiv (iv : Bytes)
  /-- Every other mnemonic, with its operand or none. -/
  | plain (i : Instr) (din : Bytes)
  /-- `.cmd 0xXXXXXXXX <hex>`, which writes any command word. -/
  | raw (cmd : Word) (din : Bytes)
  deriving DecidableEq, Repr

/-- The expansion of R81; a KG_INIT key of more than 255 bytes is refused. -/
def AsmLine.expand : AsmLine → Option Command
  | .kgInit key iv => if key.length > 255 then none else some ⟨encode (.kgInit key.length), key ++ iv⟩
  | .maSetivRnd => some ⟨encode (.maSetiv true), []⟩
  | .maSetiv iv => some ⟨encode (.maSetiv false), iv⟩
  | .plain i din => some ⟨encode i, din⟩
  | .raw cmd din => some ⟨cmd, din⟩

end Sys2Proof.Machine
end

