-- ==== Sys2Proof/Safety.lean ====
section
/-! DEFINITION. The terms the claims use: the machine's invariant, and two states that differ only in what
the readiness flags hide. -/

namespace Sys2Proof.Machine

/-- The machine's invariant between commands: no cell of S holds 0 (R24, R211), KGST is not Initializing (R26), and every
failed command's response is empty (R77). -/
structure State.Inv (s : State) : Prop where
  cells_nonzero : ∀ i : Fin 16, s.cells[i] ≠ 0
  kgst_settled : s.kgst ≠ .initializing
  failed_empty : ∀ r ∈ s.responses, r.status ≠ .ok → r.dout = []

/-- Two states a host cannot tell apart by commands: equal but for RK while KEYED = 0, CHAIN while IVLD = 0, and S, R1 and
R2 while KGST is not Running (R20, R22, R24, R25; I1, I14). -/
structure State.Alike (s t : State) : Prop where
  keyed : s.keyed = t.keyed
  ivld : s.ivld = t.ivld
  kgst : s.kgst = t.kgst
  din : s.din = t.din
  pending : s.pending = t.pending
  responses : s.responses = t.responses
  draws : s.draws = t.draws
  entropyAnswers : s.entropyAnswers = t.entropyAnswers
  rk : s.keyed = true → s.rk = t.rk
  chain : s.ivld = true → s.chain = t.chain
  gen : s.kgst = .running → s.gen = t.gen

/-- Two outcomes of one step that a host cannot tell apart. -/
def Result.Alike : Result → Result → Prop
  | .next s, .next t => s.Alike t
  | .fault a, .fault b => a = b
  | .refused a, .refused b => a = b
  | _, _ => False

/-- The state the command needs is there (the table of R244). -/
def Ready (s : State) : Instr → Prop
  | .bcEnc | .bcDec | .ecbEnc | .ecbDec | .cfbDec | .ofbDec => s.keyed = true
  | .cbcEnc | .cbcDec | .cfbEnc | .ofbEnc => s.keyed = true ∧ s.ivld = true
  | .kgGen => s.kgst = .running
  | .bcSetkey | .maSetiv _ | .kgInit _ | .coreStatus => True

/-- The illegal command words, as R75 lists them: an unassigned OP, a non-zero ARG on an OP that takes none, a non-zero ARG
bit 7:1 on MA_SETIV, a non-zero RSV. -/
def IllegalWord (cmd : Word) : Prop :=
  let op := (opField cmd).toNat
  op = 0x00 ∨ (0x04 ≤ op ∧ op ≤ 0x0F) ∨ (0x19 ≤ op ∧ op ≤ 0x1F) ∨ (0x22 ≤ op ∧ op ≤ 0x2F) ∨ 0x31 ≤ op ∨
    (op ≠ 0x10 ∧ op ≠ 0x20 ∧ argField cmd ≠ 0) ∨ (op = 0x10 ∧ 2 ≤ (argField cmd).toNat) ∨ rsvField cmd ≠ 0

/-- The `k`-th 16 bytes of a byte string: the bytes at `[16 k .. 16 k + 16)`, fewer at its end (R12). -/
def piece (b : Bytes) (k : Nat) : Bytes := (b.drop (16 * k)).take 16

/-- The `k`-th 16 bytes of a byte string as a block. -/
def blockAt (b : Bytes) (k : Nat) : Block := blockOf (piece b k)

end Sys2Proof.Machine
end

