-- ==== Sys2Proof/Certificates/Slice0/Obligations.lean ====
section
/-! DEFINITION. The statements for the provers. Each docstring names the rules of spec/ it rests on. Where a statement
gives the whole next state as a record, every field not named in it is unchanged: that is the instruction's frame. -/

open Sys2Proof Sys2Proof.Machine

/-! ## The command word -/

/-- R71, R72, R74, R78: no bit of an encoding is dropped. -/
def Obligations.DecodeOfEncode : Prop := ∀ i : Instr, i.wf = true → decode (encode i) = some i

/-- R71 to R74, R78: each legal word has one meaning, and that command's encoding is the word itself. -/
def Obligations.EncodeOfDecode : Prop := ∀ (w : Word) (i : Instr), decode w = some i → i.wf = true ∧ encode i = w

/-- R74, R78: the decode function and the opcode map's masks and matches agree on every word, and at most one row matches
any word. -/
def Obligations.DecodeFollowsOpcodeMap : Prop :=
  ∀ w : Word, (opcodeMap.filter (·.hits w)).map (·.mnemonic) = ((decode w).map Instr.mnemonic).toList ∧
    (opcodeMap.filter (·.hits w)).length ≤ 1

/-- R75: the illegal words are exactly the listed ones, and each ends with IllegalCommand, emits nothing and changes no
register. -/
def Obligations.IllegalWordsAnswerIllegalCommand : Prop :=
  (∀ w : Word, decode w = none ↔ IllegalWord w) ∧
    ∀ (s : State) (c : Command) (rest : List PortEvent), s.pending = .command c :: rest →
      c.din.length ≤ Config.maxDinBytes → IllegalWord c.cmd →
        step s = .next (State.respond { s with din := c.din, pending := rest } .illegalCommand [])

/-- V-ENC-1, R73, R74: a few words written out by hand; of the last two, one has a non-zero ARG where the OP takes none and
one a non-zero RSV. -/
def Obligations.SampleWordsDecode : Prop :=
  decode 0b00000000000000000000000000000001 = some .bcSetkey ∧
    decode 0b00000000000000000000000100010000 = some (.maSetiv true) ∧
    decode 0b00000000000000000000000000010011 = some .cbcEnc ∧
    decode 0b00000000000000000001000000100000 = some (.kgInit 16) ∧
    decode 0b00000000000000000000000000110000 = some .coreStatus ∧
    decode 0b00000000000000000000000100000001 = none ∧
    decode 0b00000000000000010000000000000001 = none

/-! ## The command port -/

/-- R59, R70, R78: a step with a legal command at the head of the port runs that command's meaning on the state that has
accepted it: DIN is the command's, and the command is gone from the port. -/
def Obligations.StepRunsDecodedCommand : Prop :=
  ∀ (s : State) (c : Command) (rest : List PortEvent) (i : Instr), s.pending = .command c :: rest →
    c.din.length ≤ Config.maxDinBytes → decode c.cmd = some i →
      step s = exec i { s with din := c.din, pending := rest }

/-- R61: MAX_DIN_BYTES is at least 32; a longer DIN is refused; DOUT is at most MAX_DIN_BYTES + 32
bytes, CFB_ENC being the one command that adds more than 16 bytes to its DIN. -/
def Obligations.PortLengthLimits : Prop :=
  32 ≤ Config.maxDinBytes ∧
    (∀ (s : State) (c : Command) (rest : List PortEvent), s.pending = .command c :: rest →
      Config.maxDinBytes < c.din.length → step s = .refused .dinTooLong) ∧
    (∀ (s t : State) (c : Command) (rest : List PortEvent) (r : Response), s.pending = .command c :: rest →
      step s = .next t → t.responses = s.responses ++ [r] → r.dout.length ≤ Config.maxDinBytes + 32) ∧
    ∀ (i : Instr) (s t : State) (r : Response), exec i s = .next t → t.responses = s.responses ++ [r] →
      r.dout.length ≤ s.din.length + 32 ∧ (i ≠ .cfbEnc → r.dout.length ≤ s.din.length + 16)

/-- R251: idling changes no state. -/
def Obligations.IdleChangesNothing : Prop := ∀ s : State, s.pending = [] → step s = .next s

/-- R59, R70, R247: every accepted command is answered with exactly one response, except a draw from an entropy port that
does not answer, which leaves the machine no step. -/
def Obligations.EveryCommandIsAnsweredOrStuck : Prop :=
  ∀ (s : State) (c : Command) (rest : List PortEvent), s.pending = .command c :: rest →
    c.din.length ≤ Config.maxDinBytes →
      (∃ (t : State) (r : Response), step s = .next t ∧ t.responses = s.responses ++ [r] ∧ t.pending = rest) ∨
        (decode c.cmd = some (.maSetiv true) ∧ c.din = [] ∧ s.entropyAnswers = false ∧
          step s = .fault .entropyPortSilent)

/-- R270: reset clears the flags, and a command it interrupts gives no response. The values of the registers that reset
leaves with "no value" are the model's choice (assumptions 1 to 4) and are not stated. That a reset is one event which names
the abandoned command, and that what is still queued on the port, the draw counter and the entropy port survive it, is the
model's reading (assumption 11, DEDUCED). -/
def Obligations.ResetClearsFlagsAndAbandons : Prop :=
  ∀ (s : State) (abandoned : Option Command) (rest : List PortEvent), s.pending = .reset abandoned :: rest →
    ∃ t : State, step s = .next t ∧ t.keyed = false ∧ t.ivld = false ∧ t.kgst = .uninitialized ∧
      t.responses = s.responses ∧ t.pending = rest ∧ t.draws = s.draws ∧ t.entropyAnswers = s.entropyAnswers

/-- R270, R271: the flags right after reset, and CORE_STATUS there returns 00000000. -/
def Obligations.ResetStatusIsZero : Prop :=
  State.reset.keyed = false ∧ State.reset.ivld = false ∧ State.reset.kgst = .uninitialized ∧
    exec .coreStatus State.reset = .next (State.reset.respond .ok [0x00, 0x00, 0x00, 0x00])

/-- R271: after reset BC_SETKEY, MA_SETIV, KG_INIT and CORE_STATUS can complete with OK; every other command gives
NotReady (KG_GEN with an empty DIN: otherwise it is ill formed, R243). -/
def Obligations.OnlySetupCommandsCompleteAfterReset : Prop :=
  (∀ i ∈ [Instr.bcSetkey, .maSetiv false, .kgInit 16, .coreStatus], ∃ (d out : Bytes) (t : State),
    exec i { State.reset with din := d } = .next t ∧ t.responses = [⟨.ok, out⟩]) ∧
    ∀ (i : Instr) (d : Bytes), i ≠ .bcSetkey → (∀ b, i ≠ .maSetiv b) → (∀ k, i ≠ .kgInit k) → i ≠ .coreStatus →
      (i = .kgGen → d = []) →
        exec i { State.reset with din := d } = .next (State.respond { State.reset with din := d } .notReady [])

/-! ## Errors -/

/-- R241: a command that ends with a status other than OK changes no register, emits nothing and draws no entropy. -/
def Obligations.FailedCommandChangesNothing : Prop :=
  ∀ (s t : State) (c : Command) (rest : List PortEvent) (r : Response), s.pending = .command c :: rest →
    step s = .next t → t.responses = s.responses ++ [r] → r.status ≠ .ok →
      r.dout = [] ∧ t = { s with din := c.din, pending := rest, responses := s.responses ++ [r] }

/-- R240: the numbers of the status codes, and which commands raise each. -/
def Obligations.StatusCodesHaveTheirRaisers : Prop :=
  [StatusCode.ok, .invalidKeyLength, .invalidIvLength, .invalidBlockLength, .malformedPadding, .inputTooShort,
      .illegalCommand, .notReady].map StatusCode.code = [0x00, 0x01, 0x02, 0x03, 0x04, 0x05, 0x80, 0x81] ∧
    ∀ (i : Instr) (s t : State) (r : Response), exec i s = .next t → t.responses = s.responses ++ [r] →
      (r.status = .invalidKeyLength → i = .bcSetkey ∨ ∃ k, i = .kgInit k) ∧
      (r.status = .invalidIvLength → (∃ b, i = .maSetiv b) ∨ ∃ k, i = .kgInit k) ∧
      (r.status = .invalidBlockLength → i ∈ [Instr.bcEnc, .bcDec, .ecbDec, .cbcDec, .cfbDec]) ∧
      (r.status = .malformedPadding → i ∈ [Instr.ecbDec, .cbcDec, .cfbDec]) ∧
      (r.status = .inputTooShort → i ∈ [Instr.cfbDec, .ofbDec]) ∧
      (r.status = .illegalCommand → i ∈ [Instr.kgGen, .coreStatus]) ∧
      (r.status = .notReady → i ∈ [Instr.bcEnc, .bcDec, .ecbEnc, .ecbDec, .cbcEnc, .cbcDec, .cfbEnc, .cfbDec, .ofbEnc,
        .ofbDec, .kgGen])

/-- R244: a command ends with NotReady exactly when the state it needs is missing (an ill-formed KG_GEN is IllegalCommand
before that, R242). -/
def Obligations.NotReadyExactlyWhenStateMissing : Prop :=
  ∀ (i : Instr) (s : State), ¬(i = .kgGen ∧ s.din ≠ []) →
    (¬ Ready s i ↔ exec i s = .next (s.respond .notReady []))

/-- R242: IllegalCommand before NotReady before the length checks before MalformedPadding, and the key's length before the
IV's, InputTooShort before InvalidBlockLength. -/
def Obligations.ErrorPriority : Prop :=
  (∀ (s : State) (w : Word), decode w = none → runWord s w = .next (s.respond .illegalCommand [])) ∧
    (∀ s : State, s.din ≠ [] → exec .kgGen s = .next (s.respond .illegalCommand []) ∧
      exec .coreStatus s = .next (s.respond .illegalCommand [])) ∧
    (∀ s : State, s.keyed = false →
      ∀ i ∈ [Instr.bcEnc, .bcDec, .ecbEnc, .ecbDec, .cbcEnc, .cbcDec, .cfbEnc, .cfbDec, .ofbEnc, .ofbDec],
        exec i s = .next (s.respond .notReady [])) ∧
    (∀ s : State, s.ivld = false → ∀ i ∈ [Instr.cbcEnc, .cbcDec, .cfbEnc, .ofbEnc],
      exec i s = .next (s.respond .notReady [])) ∧
    (∀ s : State, s.din = [] → s.kgst ≠ .running → exec .kgGen s = .next (s.respond .notReady [])) ∧
    (∀ (s : State) (k : Nat), k ≠ 16 ∨ s.din.length < 16 → exec (.kgInit k) s = .next (s.respond .invalidKeyLength [])) ∧
    (∀ s : State, 16 ≤ s.din.length → s.din.length ≠ 32 →
      exec (.kgInit 16) s = .next (s.respond .invalidIvLength [])) ∧
    (∀ s : State, s.keyed = true → s.din.length < 16 → exec .cfbDec s = .next (s.respond .inputTooShort []) ∧
      exec .ofbDec s = .next (s.respond .inputTooShort [])) ∧
    (∀ s : State, s.keyed = true → 16 ≤ s.din.length → s.din.length % 16 ≠ 0 →
      exec .cfbDec s = .next (s.respond .invalidBlockLength [])) ∧
    ∀ (i : Instr) (s : State), exec i s = .next (s.respond .malformedPadding []) →
      Ready s i ∧ s.din.length % 16 = 0 ∧ (i = .cfbDec → 16 ≤ s.din.length)

/-! ## Bytes, words and the primitives -/

/-- R13, R51, R54: blocks are four big-endian words, words leave most significant byte first, and the two directions undo
each other. -/
def Obligations.BlocksAreBigEndian : Prop :=
  (∀ b : Block, (words4 b).a.toNat = 2 ^ 24 * b[0].toNat + 2 ^ 16 * b[1].toNat + 2 ^ 8 * b[2].toNat + b[3].toNat ∧
    (words4 b).b.toNat = 2 ^ 24 * b[4].toNat + 2 ^ 16 * b[5].toNat + 2 ^ 8 * b[6].toNat + b[7].toNat ∧
    (words4 b).c.toNat = 2 ^ 24 * b[8].toNat + 2 ^ 16 * b[9].toNat + 2 ^ 8 * b[10].toNat + b[11].toNat ∧
    (words4 b).d.toNat = 2 ^ 24 * b[12].toNat + 2 ^ 16 * b[13].toNat + 2 ^ 8 * b[14].toNat + b[15].toNat) ∧
    (∀ w : Word, (b32 w).map BitVec.toNat =
      [w.toNat / 2 ^ 24, w.toNat / 2 ^ 16 % 256, w.toNat / 2 ^ 8 % 256, w.toNat % 256]) ∧
    ∀ a b c d : Word, blockBytes (bytes4 a b c d) = b32 a ++ b32 b ++ b32 c ++ b32 d ∧
      words4 (bytes4 a b c d) = ⟨a, b, c, d⟩

/-- R100, R101, R106, R107, R108: the substitution tables are bijections on bytes, τ and Sg are bijections on words, and Sg
applies S0 and S1 to alternate bytes, S0 to the most significant (assumption 19 on R108's worked example). -/
def Obligations.SubstitutionsAreBijections : Prop :=
  Function.Bijective sbox ∧ Function.Bijective s0 ∧ Function.Bijective s1 ∧ Function.Bijective tau ∧
    Function.Bijective sg ∧
    ∀ x : Word, sg x = s0 (x.extractLsb' 24 8) ++ s1 (x.extractLsb' 16 8) ++ s0 (x.extractLsb' 8 8) ++
      s1 (x.extractLsb' 0 8)

/-- R11, R102, R103, R109, R110: `rotl` is the rotation, the four diffusions are the exclusive or of their word and its left
rotations by the counts given, they are linear, and L1 equals L. -/
def Obligations.DiffusionsAreLinear : Prop :=
  (∀ (a : Word) (n : Nat), 0 < n → n < 32 → rotl a n = a.rotateLeft n) ∧
    (∀ a : Word,
      diffuse a = a ^^^ a.rotateLeft 2 ^^^ a.rotateLeft 10 ^^^ a.rotateLeft 18 ^^^ a.rotateLeft 24 ∧
      diffuseKey a = a ^^^ a.rotateLeft 13 ^^^ a.rotateLeft 23 ∧
      diffuse1 a = a ^^^ a.rotateLeft 2 ^^^ a.rotateLeft 10 ^^^ a.rotateLeft 18 ^^^ a.rotateLeft 24 ∧
      diffuse2 a = a ^^^ a.rotateLeft 8 ^^^ a.rotateLeft 14 ^^^ a.rotateLeft 22 ^^^ a.rotateLeft 30) ∧
    (∀ a b : Word, diffuse (a ^^^ b) = diffuse a ^^^ diffuse b ∧ diffuseKey (a ^^^ b) = diffuseKey a ^^^ diffuseKey b ∧
      diffuse1 (a ^^^ b) = diffuse1 a ^^^ diffuse1 b ∧ diffuse2 (a ^^^ b) = diffuse2 a ^^^ diffuse2 b) ∧
    ∀ a : Word, diffuse1 a = diffuse a

/-! ## The block cipher -/

/-- R105, R130, R131, R132: the key transform T′ is L′ of τ; the key registers K[0..35], the round keys read off them, and the
rule's worked example. -/
def Obligations.KeyScheduleRecurrence : Prop :=
  (∀ z : Word, keyT z = diffuseKey (tau z)) ∧
  (∀ key : Block, ∃ k : Nat → Word,
    k 0 = (words4 key).a ^^^ 0xA3B1BAC6 ∧ k 1 = (words4 key).b ^^^ 0x56AA3350 ∧
    k 2 = (words4 key).c ^^^ 0x677D9197 ∧ k 3 = (words4 key).d ^^^ 0xB27022DC ∧
    (∀ i, i < 32 → k (i + 4) = k i ^^^ keyT (k (i + 1) ^^^ k (i + 2) ^^^ k (i + 3) ^^^
      (BitVec.ofNat 8 (28 * i) ++ BitVec.ofNat 8 (28 * i + 7) ++ BitVec.ofNat 8 (28 * i + 14) ++
        BitVec.ofNat 8 (28 * i + 21)))) ∧
    ∀ (i : Nat) (h : i < 32), (keyExpand key)[i] = k (i + 4)) ∧
    (keyExpand #v[0x01, 0x23, 0x45, 0x67, 0x89, 0xAB, 0xCD, 0xEF, 0xFE, 0xDC, 0xBA, 0x98, 0x76, 0x54, 0x32, 0x10])[0]
      = 0xF12186F9 ∧
    (keyExpand #v[0x01, 0x23, 0x45, 0x67, 0x89, 0xAB, 0xCD, 0xEF, 0xFE, 0xDC, 0xBA, 0x98, 0x76, 0x54, 0x32, 0x10])[31]
      = 0x9124A012

/-- R101, R104, R133, R134, R135: the round transform T is L of τ, and τ applies SBOX to each byte; encryption and decryption
are the sequence X[0..35] of the round network, with the round keys in forward and in reverse order; R133's worked example for
X[4], and V-BC-5's known answer. -/
def Obligations.CipherRoundRecurrence : Prop :=
  (∀ z : Word, roundT z = diffuse (tau z)) ∧
  (∀ a : Word, tau a = sbox (a.extractLsb' 24 8) ++ sbox (a.extractLsb' 16 8) ++ sbox (a.extractLsb' 8 8) ++
    sbox (a.extractLsb' 0 8)) ∧
  (∀ key : Block,
    key = #v[0x01, 0x23, 0x45, 0x67, 0x89, 0xAB, 0xCD, 0xEF, 0xFE, 0xDC, 0xBA, 0x98, 0x76, 0x54, 0x32, 0x10] →
      (words4 key).a ^^^ roundT ((words4 key).b ^^^ (words4 key).c ^^^ (words4 key).d ^^^ (keyExpand key)[0]) = 0x27FAD345 ∧
      encBlock (keyExpand key) key =
        #v[0x68, 0x1E, 0xDF, 0x34, 0xD2, 0x06, 0x96, 0x5E, 0x86, 0xB3, 0xE9, 0x4F, 0x53, 0x6E, 0x42, 0x46]) ∧
  ∀ (rk : Schedule) (b : Block),
    (∃ x : Nat → Word, x 0 = (words4 b).a ∧ x 1 = (words4 b).b ∧ x 2 = (words4 b).c ∧ x 3 = (words4 b).d ∧
      (∀ (i : Nat) (h : i < 32), x (i + 4) = x i ^^^ roundT (x (i + 1) ^^^ x (i + 2) ^^^ x (i + 3) ^^^ rk[i])) ∧
      encBlock rk b = bytes4 (x 35) (x 34) (x 33) (x 32)) ∧
    ∃ x : Nat → Word, x 0 = (words4 b).a ∧ x 1 = (words4 b).b ∧ x 2 = (words4 b).c ∧ x 3 = (words4 b).d ∧
      (∀ (i : Nat) (h : i < 32), x (i + 4) = x i ^^^ roundT (x (i + 1) ^^^ x (i + 2) ^^^ x (i + 3) ^^^ rk[31 - i])) ∧
      decBlock rk b = bytes4 (x 35) (x 34) (x 33) (x 32)

/-- R136: decryption inverts encryption and encryption decryption, for every schedule, so for every KeyExpand(k). -/
def Obligations.DecryptionInvertsEncryption : Prop :=
  ∀ (rk : Schedule) (m : Block), decBlock rk (encBlock rk m) = m ∧ encBlock rk (decBlock rk m) = m

/-- R140: BC_SETKEY. -/
def Obligations.BcSetkeyLoadsSchedule : Prop :=
  decode 0x00000001 = some .bcSetkey ∧ ∀ s : State,
    (s.din.length = 16 → exec .bcSetkey s =
      .next (State.respond { s with rk := keyExpand (blockOf s.din), keyed := true, ivld := false } .ok [])) ∧
    (s.din.length ≠ 16 → exec .bcSetkey s = .next (s.respond .invalidKeyLength []))

/-- R141, R142: BC_ENC and BC_DEC. -/
def Obligations.BcEncDecAnswerOneBlock : Prop :=
  decode 0x00000002 = some .bcEnc ∧ decode 0x00000003 = some .bcDec ∧ ∀ s : State,
    (s.keyed = true → s.din.length = 16 →
      exec .bcEnc s = .next (s.respond .ok (blockBytes (encBlock s.rk (blockOf s.din)))) ∧
      exec .bcDec s = .next (s.respond .ok (blockBytes (decBlock s.rk (blockOf s.din))))) ∧
    (s.keyed = true → s.din.length ≠ 16 → exec .bcEnc s = .next (s.respond .invalidBlockLength []) ∧
      exec .bcDec s = .next (s.respond .invalidBlockLength [])) ∧
    (s.keyed = false → exec .bcEnc s = .next (s.respond .notReady []) ∧
      exec .bcDec s = .next (s.respond .notReady []))

/-! ## The mode adapters -/

/-- R165: MA_SETIV. The drawn IV is `Config.entropy`, of which nothing is known; a failed MA_SETIV draws nothing. -/
def Obligations.MaSetivLoadsChain : Prop :=
  decode 0x00000010 = some (.maSetiv false) ∧ decode 0x00000110 = some (.maSetiv true) ∧
  (∀ w : Word, opField w = 0x10 → (argField w).extractLsb' 1 7 ≠ 0 → decode w = none) ∧ ∀ s : State,
    (s.din.length = 16 → exec (.maSetiv false) s =
      .next (State.respond { s with chain := blockOf s.din, ivld := true } .ok [])) ∧
    (s.din.length ≠ 16 → exec (.maSetiv false) s = .next (s.respond .invalidIvLength [])) ∧
    (s.din = [] → s.entropyAnswers = true → exec (.maSetiv true) s =
      .next (State.respond { s with chain := Config.entropy s.draws, ivld := true, draws := s.draws + 1 } .ok [])) ∧
    (s.din ≠ [] → exec (.maSetiv true) s = .next (s.respond .invalidIvLength []))

/-- R247: a port that does not answer leaves the command without a response and the machine without a step. -/
def Obligations.SilentEntropyPortIsStuck : Prop :=
  ∀ s : State, s.din = [] → s.entropyAnswers = false → exec (.maSetiv true) s = .fault .entropyPortSilent

/-- R160: Pad. -/
def Obligations.PadFillsToWholeBlocks : Prop :=
  ∀ p : Bytes, (pad p).length = 16 * (p.length / 16 + 1) ∧
    ∃ n : Nat, 1 ≤ n ∧ n ≤ 16 ∧ n = 16 - p.length % 16 ∧ pad p = p ++ List.replicate n (BitVec.ofNat 8 n)

/-- R161: Unpad checks the final byte alone and strips as many bytes as it says, whatever they hold. -/
def Obligations.UnpadChecksFinalByteOnly : Prop :=
  unpad [] = none ∧
    (∀ (q : Bytes) (n : Byte), n.toNat < 1 ∨ 16 < n.toNat → unpad (q ++ [n]) = none) ∧
    ∀ (body inner : Bytes) (n : Byte), 1 ≤ n.toNat → n.toNat ≤ 16 → inner.length + 1 = n.toNat →
      unpad (body ++ inner ++ [n]) = some body

/-- R170: ECB_ENC encrypts each block of the padded plaintext by itself. -/
def Obligations.EcbEncEncryptsEachBlock : Prop :=
  decode 0x00000011 = some .ecbEnc ∧ ∀ s : State,
    (s.keyed = true → ∃ out : Bytes, out.length = (pad s.din).length ∧
      (∀ k, k < s.din.length / 16 + 1 → piece out k = blockBytes (encBlock s.rk (blockAt (pad s.din) k))) ∧
      exec .ecbEnc s = .next (s.respond .ok out)) ∧
    (s.keyed = false → exec .ecbEnc s = .next (s.respond .notReady []))

/-- R171: ECB_DEC decrypts each block and unpads. -/
def Obligations.EcbDecDecryptsEachBlock : Prop :=
  decode 0x00000012 = some .ecbDec ∧ ∀ s : State,
    (s.keyed = true → s.din.length % 16 = 0 → ∃ q : Bytes, q.length = s.din.length ∧
      (∀ k, k < s.din.length / 16 → piece q k = blockBytes (decBlock s.rk (blockAt s.din k))) ∧
      (∀ r, unpad q = some r → exec .ecbDec s = .next (s.respond .ok r)) ∧
      (unpad q = none → exec .ecbDec s = .next (s.respond .malformedPadding []))) ∧
    (s.keyed = true → s.din.length % 16 ≠ 0 → exec .ecbDec s = .next (s.respond .invalidBlockLength [])) ∧
    (s.keyed = false → exec .ecbDec s = .next (s.respond .notReady []))

/-- R172: CBC_ENC. `v k` is the chaining value before block k. -/
def Obligations.CbcEncChainsCiphertext : Prop :=
  decode 0x00000013 = some .cbcEnc ∧ ∀ s : State,
    (s.keyed = true → s.ivld = true → ∃ (v : Nat → Block) (out : Bytes), v 0 = s.chain ∧
      out.length = 16 * (s.din.length / 16 + 1) ∧
      (∀ k, k < s.din.length / 16 + 1 → v (k + 1) = encBlock s.rk (xorBlock (blockAt (pad s.din) k) (v k)) ∧
        piece out k = blockBytes (v (k + 1))) ∧
      exec .cbcEnc s = .next (State.respond { s with chain := v (s.din.length / 16 + 1) } .ok out)) ∧
    (s.keyed = false ∨ s.ivld = false → exec .cbcEnc s = .next (s.respond .notReady []))

/-- R173, R163: CBC_DEC. CHAIN becomes the last ciphertext block consumed, and stays on MalformedPadding. -/
def Obligations.CbcDecChainsCiphertext : Prop :=
  decode 0x00000014 = some .cbcDec ∧ ∀ s : State,
    (s.keyed = true → s.ivld = true → s.din.length % 16 = 0 → ∃ (v : Nat → Block) (q : Bytes), v 0 = s.chain ∧
      q.length = s.din.length ∧
      (∀ k, k < s.din.length / 16 → v (k + 1) = blockAt s.din k ∧
        piece q k = blockBytes (xorBlock (decBlock s.rk (blockAt s.din k)) (v k))) ∧
      (∀ r, unpad q = some r →
        exec .cbcDec s = .next (State.respond { s with chain := v (s.din.length / 16) } .ok r)) ∧
      (unpad q = none → exec .cbcDec s = .next (s.respond .malformedPadding []))) ∧
    (s.keyed = true → s.ivld = true → s.din.length % 16 ≠ 0 →
      exec .cbcDec s = .next (s.respond .invalidBlockLength [])) ∧
    (s.keyed = false ∨ s.ivld = false → exec .cbcDec s = .next (s.respond .notReady []))

/-- R162, R174: CFB_ENC pads, prefixes CHAIN and feeds the ciphertext back. -/
def Obligations.CfbEncFeedsCiphertextBack : Prop :=
  decode 0x00000015 = some .cfbEnc ∧ ∀ s : State,
    (s.keyed = true → s.ivld = true → ∃ (v : Nat → Block) (out : Bytes), v 0 = s.chain ∧
      out.length = 16 + 16 * (s.din.length / 16 + 1) ∧
      (∀ k, k < s.din.length / 16 + 1 → v (k + 1) = xorBlock (encBlock s.rk (v k)) (blockAt (pad s.din) k)) ∧
      (∀ k, k ≤ s.din.length / 16 + 1 → piece out k = blockBytes (v k)) ∧
      exec .cfbEnc s = .next (State.respond { s with chain := v (s.din.length / 16 + 1) } .ok out)) ∧
    (s.keyed = false ∨ s.ivld = false → exec .cfbEnc s = .next (s.respond .notReady []))

/-- R162, R175: CFB_DEC starts from the prefix and uses the cipher in the encrypt direction. -/
def Obligations.CfbDecStartsFromPrefix : Prop :=
  decode 0x00000016 = some .cfbDec ∧ ∀ s : State,
    (s.keyed = true → 16 ≤ s.din.length → s.din.length % 16 = 0 → ∃ (v : Nat → Block) (q : Bytes),
      q.length = s.din.length - 16 ∧
      (∀ k, k < s.din.length / 16 → v k = blockAt s.din k) ∧
      (∀ k, k + 1 < s.din.length / 16 → piece q k = blockBytes (xorBlock (encBlock s.rk (v k)) (v (k + 1)))) ∧
      (∀ r, unpad q = some r → exec .cfbDec s =
        .next (State.respond { s with chain := v (s.din.length / 16 - 1), ivld := true } .ok r)) ∧
      (unpad q = none → exec .cfbDec s = .next (s.respond .malformedPadding []))) ∧
    (s.keyed = true → s.din.length < 16 → exec .cfbDec s = .next (s.respond .inputTooShort [])) ∧
    (s.keyed = true → 16 ≤ s.din.length → s.din.length % 16 ≠ 0 →
      exec .cfbDec s = .next (s.respond .invalidBlockLength [])) ∧
    (s.keyed = false → exec .cfbDec s = .next (s.respond .notReady []))

/-- R176: OFB_ENC. `v k` is the k-th keystream block, `v 0` the prefix; the last piece may be short. -/
def Obligations.OfbEncAppliesKeystream : Prop :=
  decode 0x00000017 = some .ofbEnc ∧ ∀ s : State,
    (s.keyed = true → s.ivld = true → ∃ (v : Nat → Block) (out : Bytes), v 0 = s.chain ∧
      (∀ k, v (k + 1) = encBlock s.rk (v k)) ∧ out.length = s.din.length ∧
      (∀ k, k < (s.din.length + 15) / 16 →
        piece out k = xorBytes (piece s.din k) ((blockBytes (v (k + 1))).take (piece s.din k).length)) ∧
      exec .ofbEnc s = .next (State.respond { s with chain := v ((s.din.length + 15) / 16), ivld := true } .ok
        (blockBytes s.chain ++ out))) ∧
    (s.keyed = false ∨ s.ivld = false → exec .ofbEnc s = .next (s.respond .notReady []))

/-- R177: OFB_DEC starts from the prefix, whatever CHAIN and IVLD hold. -/
def Obligations.OfbDecStartsFromPrefix : Prop :=
  decode 0x00000018 = some .ofbDec ∧ ∀ s : State,
    (s.keyed = true → 16 ≤ s.din.length → ∃ (v : Nat → Block) (out : Bytes), v 0 = blockOf (s.din.take 16) ∧
      (∀ k, v (k + 1) = encBlock s.rk (v k)) ∧ out.length = s.din.length - 16 ∧
      (∀ k, k < (s.din.length - 1) / 16 → piece out k =
        xorBytes (piece s.din (k + 1)) ((blockBytes (v (k + 1))).take (piece s.din (k + 1)).length)) ∧
      exec .ofbDec s = .next (State.respond { s with chain := v ((s.din.length - 1) / 16), ivld := true } .ok out)) ∧
    (s.keyed = true → s.din.length < 16 → exec .ofbDec s = .next (s.respond .inputTooShort [])) ∧
    (s.keyed = false → exec .ofbDec s = .next (s.respond .notReady []))

/-- R178: ECB_DEC(ECB_ENC(p)) = p, on any core that holds the same schedule. -/
def Obligations.EcbRoundTrip : Prop :=
  ∀ s : State, s.keyed = true → ∃ c : Bytes, exec .ecbEnc s = .next (s.respond .ok c) ∧
    ∀ t : State, t.keyed = true → t.rk = s.rk → t.din = c → exec .ecbDec t = .next (t.respond .ok s.din)

/-- R178: with the same CHAIN before each, CBC_DEC(CBC_ENC(p)) = p, and the two leave the same CHAIN. -/
def Obligations.CbcRoundTrip : Prop :=
  ∀ s : State, s.keyed = true → s.ivld = true → ∃ (c : Bytes) (v : Block),
    exec .cbcEnc s = .next (State.respond { s with chain := v } .ok c) ∧
    ∀ t : State, t.keyed = true → t.ivld = true → t.rk = s.rk → t.chain = s.chain → t.din = c →
      exec .cbcDec t = .next (State.respond { t with chain := v } .ok s.din)

/-- R178: CFB_DEC(CFB_ENC(p)) = p for any CHAIN before either command. -/
def Obligations.CfbRoundTrip : Prop :=
  ∀ s : State, s.keyed = true → s.ivld = true → ∃ (c : Bytes) (v : Block),
    exec .cfbEnc s = .next (State.respond { s with chain := v } .ok c) ∧
    ∀ t : State, t.keyed = true → t.rk = s.rk → t.din = c →
      exec .cfbDec t = .next (State.respond { t with chain := v, ivld := true } .ok s.din)

/-- R178: OFB_DEC(OFB_ENC(p)) = p for any CHAIN before either command and any length of p. -/
def Obligations.OfbRoundTrip : Prop :=
  ∀ s : State, s.keyed = true → s.ivld = true → ∃ (c : Bytes) (v : Block),
    exec .ofbEnc s = .next (State.respond { s with chain := v } .ok c) ∧
    ∀ t : State, t.keyed = true → t.rk = s.rk → t.din = c →
      exec .ofbDec t = .next (State.respond { t with chain := v, ivld := true } .ok s.din)

/-- R274 (c), R176: after a message of whole blocks a second OFB_ENC continues the keystream: the two outputs without
their prefixes are the output for the two messages joined, and CHAIN ends the same. -/
def Obligations.OfbContinuesItsChain : Prop :=
  ∀ (s : State) (q : Bytes), s.keyed = true → s.ivld = true → s.din.length % 16 = 0 →
    ∃ (a b : Bytes) (v w : Block),
      exec .ofbEnc s = .next (State.respond { s with chain := v } .ok (blockBytes s.chain ++ a)) ∧
      (∀ t : State, t.keyed = true → t.ivld = true → t.rk = s.rk → t.chain = v → t.din = q →
        exec .ofbEnc t = .next (State.respond { t with chain := w } .ok (blockBytes v ++ b))) ∧
      exec .ofbEnc { s with din := s.din ++ q } =
        .next (State.respond { s with din := s.din ++ q, chain := w } .ok (blockBytes s.chain ++ a ++ b))

/-- R274 (a): after a successful BC_SETKEY every command that starts from CHAIN gives NotReady. -/
def Obligations.RekeyDropsIv : Prop :=
  ∀ (s t : State) (d : Bytes), s.din.length = 16 → exec .bcSetkey s = .next t →
    ∀ i ∈ [Instr.cbcEnc, .cbcDec, .cfbEnc, .ofbEnc],
      exec i { t with din := d } = .next (State.respond { t with din := d } .notReady [])

/-! ## The keystream generator -/

/-- R200, R201: the packing of a loaded cell, and that it is at least 2^8. -/
def Obligations.LoadPacksCells : Prop :=
  ∀ (k iv : Block) (i : Nat) (h : i < 16),
    (loadCells k iv)[i].toNat = 2 ^ 23 * k[i].toNat + 2 ^ 8 * loadConst[i].toNat + iv[i].toNat ∧
      2 ^ 8 ≤ (loadCells k iv)[i].toNat

/-- R202, R203: the tap words by number. -/
def Obligations.TapsTakeHalfWords : Prop :=
  ∀ s : Cells,
    (taps s).x0.toNat = 2 ^ 16 * (s[15].toNat / 2 ^ 15) + s[14].toNat % 2 ^ 16 ∧
    (taps s).x1.toNat = 2 ^ 16 * (s[11].toNat % 2 ^ 16) + s[9].toNat / 2 ^ 15 ∧
    (taps s).x2.toNat = 2 ^ 16 * (s[7].toNat % 2 ^ 16) + s[5].toNat / 2 ^ 15 ∧
    (taps s).x3.toNat = 2 ^ 16 * (s[2].toNat % 2 ^ 16) + s[0].toNat / 2 ^ 15

/-- R204: F by number: additions modulo 2^32, and the half-word mixes. -/
def Obligations.NonlinearFunctionMixes : Prop :=
  ∀ x0 x1 x2 r1 r2 : Word, ∃ w1 w2 y z : Word,
    w1.toNat = (r1.toNat + x1.toNat) % 2 ^ 32 ∧ w2 = r2 ^^^ x2 ∧
    y.toNat = 2 ^ 16 * (w1.toNat % 2 ^ 16) + w2.toNat / 2 ^ 16 ∧
    z.toNat = 2 ^ 16 * (w2.toNat % 2 ^ 16) + w1.toNat / 2 ^ 16 ∧
    (nonlinear x0 x1 x2 r1 r2).w.toNat = ((x0 ^^^ r1).toNat + r2.toNat) % 2 ^ 32 ∧
    (nonlinear x0 x1 x2 r1 r2).r1 = sg (diffuse1 y) ∧ (nonlinear x0 x1 x2 r1 r2).r2 = sg (diffuse2 z)

/-- R205, R206, R207: a register step moves the cells down and appends the one value in [1, 2^31 - 1] congruent to the
feedback sum plus u; in running mode u is 0. -/
def Obligations.RegisterStepFeedsBack : Prop :=
  ∀ (s : Cells) (u : Nat),
    (∀ (i : Nat) (h : i < 15), (stepInit s u)[i] = s[i + 1]) ∧
    1 ≤ (stepInit s u)[15].toNat ∧ (stepInit s u)[15].toNat ≤ 2 ^ 31 - 1 ∧
    (stepInit s u)[15].toNat ≡
      2 ^ 15 * s[15].toNat + 2 ^ 17 * s[13].toNat + 2 ^ 21 * s[10].toNat + 2 ^ 20 * s[4].toNat
        + (1 + 2 ^ 8) * s[0].toNat + u [MOD 2 ^ 31 - 1] ∧
    stepWork s = stepInit s 0

/-- R208, R209, R212: KG_INIT loads, runs 32 initialisation rounds from R1 = R2 = 0 and one warm-up step; `g n` is the
generator after n rounds. The other DINs and KLENs fail. -/
def Obligations.KgInitStartsGenerator : Prop :=
  decode 0x00001020 = some (.kgInit 16) ∧ ∀ s : State,
    (s.din.length = 32 → ∃ g : Nat → Gen, g 0 = ⟨loadCells (blockAt s.din 0) (blockAt s.din 1), 0, 0⟩ ∧
      (∀ n, n < 32 → ∀ x f, x = taps (g n).cells → f = nonlinear x.x0 x.x1 x.x2 (g n).r1 (g n).r2 →
        g (n + 1) = ⟨stepInit (g n).cells (f.w.toNat / 2), f.r1, f.r2⟩) ∧
      (∀ x f, x = taps (g 32).cells → f = nonlinear x.x0 x.x1 x.x2 (g 32).r1 (g 32).r2 →
        g 33 = ⟨stepWork (g 32).cells, f.r1, f.r2⟩) ∧
      exec (.kgInit 16) s = .next (State.respond
        { s with cells := (g 33).cells, r1 := (g 33).r1, r2 := (g 33).r2, kgst := .running } .ok [])) ∧
    (∀ k, k ≠ 16 ∨ s.din.length < 16 → exec (.kgInit k) s = .next (s.respond .invalidKeyLength [])) ∧
    (16 ≤ s.din.length → s.din.length ≠ 32 → exec (.kgInit 16) s = .next (s.respond .invalidIvLength []))

/-- R210, R213: KG_GEN answers F(X0, X1, X2) ⊕ X3, with the taps taken before the step, and advances the generator. -/
def Obligations.KgGenProducesNextWord : Prop :=
  decode 0x00000021 = some .kgGen ∧ ∀ s : State,
    (s.din = [] → s.kgst = .running → ∀ x f, x = taps s.cells → f = nonlinear x.x0 x.x1 x.x2 s.r1 s.r2 →
      exec .kgGen s = .next (State.respond { s with cells := stepWork s.cells, r1 := f.r1, r2 := f.r2 } .ok
        (b32 (f.w ^^^ x.x3)))) ∧
    (s.din = [] → s.kgst ≠ .running → exec .kgGen s = .next (s.respond .notReady [])) ∧
    (s.din ≠ [] → exec .kgGen s = .next (s.respond .illegalCommand []))

/-- R214: the two known keystream words for the all-zero key and IV, and for the all-ones key and IV: a KG_INIT and then two
KG_GEN, from any state. -/
def Obligations.KnownAnswerKeystream : Prop :=
  ∀ s : State,
    (s.din = List.replicate 32 0x00 → ∃ t u v : State, exec (.kgInit 16) s = .next t ∧
      exec .kgGen { t with din := [] } = .next u ∧ exec .kgGen u = .next v ∧
      v.responses = s.responses ++ [⟨.ok, []⟩, ⟨.ok, [0x27, 0xBE, 0xDE, 0x74]⟩, ⟨.ok, [0x01, 0x80, 0x82, 0xDA]⟩]) ∧
    (s.din = List.replicate 32 0xFF → ∃ t u v : State, exec (.kgInit 16) s = .next t ∧
      exec .kgGen { t with din := [] } = .next u ∧ exec .kgGen u = .next v ∧
      v.responses = s.responses ++ [⟨.ok, []⟩, ⟨.ok, [0x06, 0x57, 0xCF, 0xA0]⟩, ⟨.ok, [0x70, 0x96, 0x39, 0x8B]⟩])

/-- R72, R81, R212: the assembler's `KG_INIT key, iv` carries the key's length, so the CORE can tell a wrong key from a
wrong IV. -/
def Obligations.KgInitJudgesKeyAndIvApart : Prop :=
  ∀ (s : State) (key iv : Bytes),
    ((AsmLine.kgInit key iv).expand = none ↔ 255 < key.length) ∧
    ∀ c : Command, (AsmLine.kgInit key iv).expand = some c →
      c.din = key ++ iv ∧ decode c.cmd = some (.kgInit key.length) ∧
      (key.length ≠ 16 → exec (.kgInit key.length) { s with din := c.din } =
        .next (State.respond { s with din := c.din } .invalidKeyLength [])) ∧
      (key.length = 16 → iv.length ≠ 16 → exec (.kgInit key.length) { s with din := c.din } =
        .next (State.respond { s with din := c.din } .invalidIvLength [])) ∧
      (key.length = 16 → iv.length = 16 → ∃ t : State, exec (.kgInit key.length) { s with din := c.din } = .next t ∧
        t.kgst = .running ∧ t.responses = s.responses ++ [⟨.ok, []⟩])

/-- R211 (d): the KG commands neither see nor touch BC's and MA's registers: two cores with the same generator and DIN
answer the same and end with the same generator, whatever the other registers hold. -/
def Obligations.GeneratorSharesNoState : Prop :=
  ∀ (i : Instr) (s t : State), i = .kgGen ∨ (∃ k, i = .kgInit k) → s.din = t.din → s.cells = t.cells → s.r1 = t.r1 →
    s.r2 = t.r2 → s.kgst = t.kgst → ∃ (c : Cells) (a b : Word) (k : KgState) (r : Response),
      exec i s = .next { s with cells := c, r1 := a, r2 := b, kgst := k, responses := s.responses ++ [r] } ∧
      exec i t = .next { t with cells := c, r1 := a, r2 := b, kgst := k, responses := t.responses ++ [r] }

/-! ## The whole machine -/

/-- R26, R27, R248: CORE_STATUS answers the STATUS view, big-endian, and changes nothing. KGST stands in bits 3:2 by the
numbers of R26, 0b00, 0b01 and 0b10 (no step that starts from the invariant meets the second: `StepKeepsInvariant`). -/
def Obligations.CoreStatusReadsView : Prop :=
  decode 0x00000030 = some .coreStatus ∧ ∀ s : State,
    (s.din = [] → ∃ v : Word, exec .coreStatus s = .next (s.respond .ok (b32 v)) ∧
      (s.kgst = .uninitialized → v.toNat = s.keyed.toNat + 2 * s.ivld.toNat) ∧
      (s.kgst = .initializing → v.toNat = s.keyed.toNat + 2 * s.ivld.toNat + 4 * 1) ∧
      (s.kgst = .running → v.toNat = s.keyed.toNat + 2 * s.ivld.toNat + 4 * 2)) ∧
    (s.din ≠ [] → exec .coreStatus s = .next (s.respond .illegalCommand []))

/-- R20 to R26 (the "written by" column of 10_state.md section 1): a command that changes a register is one of its writers,
and a change of the entropy port, which is no writer of any, changes no register. That event itself, and the fields `draws` and
`entropyAnswers`, are the model's choice (assumptions 8 and 9, DESIGN CHOICE). -/
def Obligations.RegistersHaveTheirWriters : Prop :=
  (∀ (s : State) (answers : Bool) (rest : List PortEvent), s.pending = .entropyPort answers :: rest →
    step s = .next { s with entropyAnswers := answers, pending := rest }) ∧
  ∀ (i : Instr) (s t : State), exec i s = .next t →
    (t.rk ≠ s.rk → i = .bcSetkey) ∧ (t.keyed ≠ s.keyed → i = .bcSetkey) ∧
    (t.chain ≠ s.chain → (∃ b, i = .maSetiv b) ∨ i ∈ [Instr.cbcEnc, .cbcDec, .cfbEnc, .cfbDec, .ofbEnc, .ofbDec]) ∧
    (t.ivld ≠ s.ivld → (∃ b, i = .maSetiv b) ∨ i ∈ [Instr.bcSetkey, .cfbDec, .ofbDec]) ∧
    (t.cells ≠ s.cells → i = .kgGen ∨ ∃ k, i = .kgInit k) ∧ (t.r1 ≠ s.r1 → i = .kgGen ∨ ∃ k, i = .kgInit k) ∧
    (t.r2 ≠ s.r2 → i = .kgGen ∨ ∃ k, i = .kgInit k) ∧ (t.kgst ≠ s.kgst → ∃ k, i = .kgInit k) ∧
    (t.draws ≠ s.draws → i = .maSetiv true) ∧ t.din = s.din ∧ t.pending = s.pending ∧
    t.entropyAnswers = s.entropyAnswers

/-- R21, R26: nothing clears KEYED and nothing stops a running generator except reset. -/
def Obligations.ReadinessLastsUntilReset : Prop :=
  ∀ s t : State, step s = .next t → (∀ a rest, s.pending ≠ .reset a :: rest) →
    (s.keyed = true → t.keyed = true) ∧ (s.kgst = .running → t.kgst = .running)

/-- R24, R26, R77, R211: every step keeps the invariant: no cell is 0, KGST is not Initializing, failed responses are
empty. Where the step serves a reset, that no cell is 0 after it rests on the model's reset value for S (assumption 3, DESIGN
CHOICE). -/
def Obligations.StepKeepsInvariant : Prop := ∀ s t : State, s.Inv → step s = .next t → t.Inv

/-- The invariant holds at reset. That the cells are not 0 there rests on the model's reset value (assumption 3). -/
def Obligations.ResetMeetsInvariant : Prop := State.reset.Inv

/-- R20, R22, R24, R25, R270 (I1, I14): what RK holds while KEYED = 0, CHAIN while IVLD = 0, and S, R1 and R2 while KGST
is not Running can never be observed: two states alike but for these take steps that are alike again. So no claim about
responses rests on the reset values the model chose (assumptions 1 to 4). -/
def Obligations.GatedRegistersAreUnobservable : Prop :=
  ∀ s t : State, s.Alike t → Result.Alike (step s) (step t)
end

