-- ==== Sys2Proof/Laws/Decode.lean ====
section
/-! SUPPORT. The fields of a command word: each read from the word that was put together of them, and a word put together
again of its own fields. -/

namespace Sys2Proof

@[simp] theorem cmdWord_op (arg op : Byte) : opField (cmdWord arg op) = op := by
  apply BitVec.eq_of_getLsbD_eq
  intro i hi
  simp only [opField, cmdWord, BitVec.getLsbD_extractLsb', BitVec.getLsbD_append, hi, decide_true, Bool.true_and,
    Nat.zero_add, if_true]

@[simp] theorem cmdWord_arg (arg op : Byte) : argField (cmdWord arg op) = arg := by
  apply BitVec.eq_of_getLsbD_eq
  intro i hi
  simp only [argField, cmdWord, BitVec.getLsbD_extractLsb', BitVec.getLsbD_append, hi, decide_true, Bool.true_and]
  (repeat' split) <;> first | omega | (congr 1; omega)

@[simp] theorem cmdWord_rsv (arg op : Byte) : rsvField (cmdWord arg op) = 0 := by
  apply BitVec.eq_of_getLsbD_eq
  intro i hi
  simp only [rsvField, cmdWord, BitVec.getLsbD_extractLsb', BitVec.getLsbD_append, hi, decide_true, Bool.true_and]
  (repeat' split) <;> first | omega | simp

/-- A word is its three fields, RSV the most significant (R71). -/
theorem word_of_fields (w : Word) : w = rsvField w ++ argField w ++ opField w := by
  simp only [rsvField, argField, opField]
  rw [BitVec.extractLsb'_append_extractLsb'_eq_extractLsb' (by decide),
    BitVec.extractLsb'_append_extractLsb'_eq_extractLsb' (by decide)]
  exact BitVec.extractLsb'_eq_self.symm

/-- A word whose RSV is 0 is the command word of its ARG and OP. -/
theorem word_of_arg_op {w : Word} (h : rsvField w = 0) : w = cmdWord (argField w) (opField w) := by
  have := word_of_fields w
  rwa [h] at this

/-- Two words with the same fields are the same word. -/
theorem word_ext {v w : Word} (h1 : rsvField v = rsvField w) (h2 : argField v = argField w)
    (h3 : opField v = opField w) : v = w := by
  rw [word_of_fields v, word_of_fields w, h1, h2, h3]

/-- The fields of a masked word are the masked fields. -/
theorem rsvField_and (v w : Word) : rsvField (v &&& w) = rsvField v &&& rsvField w := BitVec.extractLsb'_and ..

theorem argField_and (v w : Word) : argField (v &&& w) = argField v &&& argField w := BitVec.extractLsb'_and ..

theorem opField_and (v w : Word) : opField (v &&& w) = opField v &&& opField w := BitVec.extractLsb'_and ..

end Sys2Proof
end

