-- ==== Sys2Proof/Laws/State.lean ====
section
/-! SUPPORT. One lemma per field and update of the state, each true by unfolding: what a read sees after a write. -/

namespace Sys2Proof.Machine

section
variable (s : State) (v : Schedule)
@[simp] theorem State.setRk_rk : (s.setRk v).rk = v := rfl
@[simp] theorem State.setRk_keyed : (s.setRk v).keyed = s.keyed := rfl
@[simp] theorem State.setRk_chain : (s.setRk v).chain = s.chain := rfl
@[simp] theorem State.setRk_ivld : (s.setRk v).ivld = s.ivld := rfl
@[simp] theorem State.setRk_cells : (s.setRk v).cells = s.cells := rfl
@[simp] theorem State.setRk_r1 : (s.setRk v).r1 = s.r1 := rfl
@[simp] theorem State.setRk_r2 : (s.setRk v).r2 = s.r2 := rfl
@[simp] theorem State.setRk_kgst : (s.setRk v).kgst = s.kgst := rfl
@[simp] theorem State.setRk_din : (s.setRk v).din = s.din := rfl
@[simp] theorem State.setRk_pending : (s.setRk v).pending = s.pending := rfl
@[simp] theorem State.setRk_responses : (s.setRk v).responses = s.responses := rfl
@[simp] theorem State.setRk_draws : (s.setRk v).draws = s.draws := rfl
@[simp] theorem State.setRk_entropyAnswers : (s.setRk v).entropyAnswers = s.entropyAnswers := rfl
end

section
variable (s : State) (v : Bool)
@[simp] theorem State.setKeyed_rk : (s.setKeyed v).rk = s.rk := rfl
@[simp] theorem State.setKeyed_keyed : (s.setKeyed v).keyed = v := rfl
@[simp] theorem State.setKeyed_chain : (s.setKeyed v).chain = s.chain := rfl
@[simp] theorem State.setKeyed_ivld : (s.setKeyed v).ivld = s.ivld := rfl
@[simp] theorem State.setKeyed_cells : (s.setKeyed v).cells = s.cells := rfl
@[simp] theorem State.setKeyed_r1 : (s.setKeyed v).r1 = s.r1 := rfl
@[simp] theorem State.setKeyed_r2 : (s.setKeyed v).r2 = s.r2 := rfl
@[simp] theorem State.setKeyed_kgst : (s.setKeyed v).kgst = s.kgst := rfl
@[simp] theorem State.setKeyed_din : (s.setKeyed v).din = s.din := rfl
@[simp] theorem State.setKeyed_pending : (s.setKeyed v).pending = s.pending := rfl
@[simp] theorem State.setKeyed_responses : (s.setKeyed v).responses = s.responses := rfl
@[simp] theorem State.setKeyed_draws : (s.setKeyed v).draws = s.draws := rfl
@[simp] theorem State.setKeyed_entropyAnswers : (s.setKeyed v).entropyAnswers = s.entropyAnswers := rfl
end

section
variable (s : State) (v : Block)
@[simp] theorem State.setChain_rk : (s.setChain v).rk = s.rk := rfl
@[simp] theorem State.setChain_keyed : (s.setChain v).keyed = s.keyed := rfl
@[simp] theorem State.setChain_chain : (s.setChain v).chain = v := rfl
@[simp] theorem State.setChain_ivld : (s.setChain v).ivld = s.ivld := rfl
@[simp] theorem State.setChain_cells : (s.setChain v).cells = s.cells := rfl
@[simp] theorem State.setChain_r1 : (s.setChain v).r1 = s.r1 := rfl
@[simp] theorem State.setChain_r2 : (s.setChain v).r2 = s.r2 := rfl
@[simp] theorem State.setChain_kgst : (s.setChain v).kgst = s.kgst := rfl
@[simp] theorem State.setChain_din : (s.setChain v).din = s.din := rfl
@[simp] theorem State.setChain_pending : (s.setChain v).pending = s.pending := rfl
@[simp] theorem State.setChain_responses : (s.setChain v).responses = s.responses := rfl
@[simp] theorem State.setChain_draws : (s.setChain v).draws = s.draws := rfl
@[simp] theorem State.setChain_entropyAnswers : (s.setChain v).entropyAnswers = s.entropyAnswers := rfl
end

section
variable (s : State) (v : Bool)
@[simp] theorem State.setIvld_rk : (s.setIvld v).rk = s.rk := rfl
@[simp] theorem State.setIvld_keyed : (s.setIvld v).keyed = s.keyed := rfl
@[simp] theorem State.setIvld_chain : (s.setIvld v).chain = s.chain := rfl
@[simp] theorem State.setIvld_ivld : (s.setIvld v).ivld = v := rfl
@[simp] theorem State.setIvld_cells : (s.setIvld v).cells = s.cells := rfl
@[simp] theorem State.setIvld_r1 : (s.setIvld v).r1 = s.r1 := rfl
@[simp] theorem State.setIvld_r2 : (s.setIvld v).r2 = s.r2 := rfl
@[simp] theorem State.setIvld_kgst : (s.setIvld v).kgst = s.kgst := rfl
@[simp] theorem State.setIvld_din : (s.setIvld v).din = s.din := rfl
@[simp] theorem State.setIvld_pending : (s.setIvld v).pending = s.pending := rfl
@[simp] theorem State.setIvld_responses : (s.setIvld v).responses = s.responses := rfl
@[simp] theorem State.setIvld_draws : (s.setIvld v).draws = s.draws := rfl
@[simp] theorem State.setIvld_entropyAnswers : (s.setIvld v).entropyAnswers = s.entropyAnswers := rfl
end

section
variable (s : State) (v : Cells)
@[simp] theorem State.setCells_rk : (s.setCells v).rk = s.rk := rfl
@[simp] theorem State.setCells_keyed : (s.setCells v).keyed = s.keyed := rfl
@[simp] theorem State.setCells_chain : (s.setCells v).chain = s.chain := rfl
@[simp] theorem State.setCells_ivld : (s.setCells v).ivld = s.ivld := rfl
@[simp] theorem State.setCells_cells : (s.setCells v).cells = v := rfl
@[simp] theorem State.setCells_r1 : (s.setCells v).r1 = s.r1 := rfl
@[simp] theorem State.setCells_r2 : (s.setCells v).r2 = s.r2 := rfl
@[simp] theorem State.setCells_kgst : (s.setCells v).kgst = s.kgst := rfl
@[simp] theorem State.setCells_din : (s.setCells v).din = s.din := rfl
@[simp] theorem State.setCells_pending : (s.setCells v).pending = s.pending := rfl
@[simp] theorem State.setCells_responses : (s.setCells v).responses = s.responses := rfl
@[simp] theorem State.setCells_draws : (s.setCells v).draws = s.draws := rfl
@[simp] theorem State.setCells_entropyAnswers : (s.setCells v).entropyAnswers = s.entropyAnswers := rfl
end

section
variable (s : State) (v : Word)
@[simp] theorem State.setR1_rk : (s.setR1 v).rk = s.rk := rfl
@[simp] theorem State.setR1_keyed : (s.setR1 v).keyed = s.keyed := rfl
@[simp] theorem State.setR1_chain : (s.setR1 v).chain = s.chain := rfl
@[simp] theorem State.setR1_ivld : (s.setR1 v).ivld = s.ivld := rfl
@[simp] theorem State.setR1_cells : (s.setR1 v).cells = s.cells := rfl
@[simp] theorem State.setR1_r1 : (s.setR1 v).r1 = v := rfl
@[simp] theorem State.setR1_r2 : (s.setR1 v).r2 = s.r2 := rfl
@[simp] theorem State.setR1_kgst : (s.setR1 v).kgst = s.kgst := rfl
@[simp] theorem State.setR1_din : (s.setR1 v).din = s.din := rfl
@[simp] theorem State.setR1_pending : (s.setR1 v).pending = s.pending := rfl
@[simp] theorem State.setR1_responses : (s.setR1 v).responses = s.responses := rfl
@[simp] theorem State.setR1_draws : (s.setR1 v).draws = s.draws := rfl
@[simp] theorem State.setR1_entropyAnswers : (s.setR1 v).entropyAnswers = s.entropyAnswers := rfl
end

section
variable (s : State) (v : Word)
@[simp] theorem State.setR2_rk : (s.setR2 v).rk = s.rk := rfl
@[simp] theorem State.setR2_keyed : (s.setR2 v).keyed = s.keyed := rfl
@[simp] theorem State.setR2_chain : (s.setR2 v).chain = s.chain := rfl
@[simp] theorem State.setR2_ivld : (s.setR2 v).ivld = s.ivld := rfl
@[simp] theorem State.setR2_cells : (s.setR2 v).cells = s.cells := rfl
@[simp] theorem State.setR2_r1 : (s.setR2 v).r1 = s.r1 := rfl
@[simp] theorem State.setR2_r2 : (s.setR2 v).r2 = v := rfl
@[simp] theorem State.setR2_kgst : (s.setR2 v).kgst = s.kgst := rfl
@[simp] theorem State.setR2_din : (s.setR2 v).din = s.din := rfl
@[simp] theorem State.setR2_pending : (s.setR2 v).pending = s.pending := rfl
@[simp] theorem State.setR2_responses : (s.setR2 v).responses = s.responses := rfl
@[simp] theorem State.setR2_draws : (s.setR2 v).draws = s.draws := rfl
@[simp] theorem State.setR2_entropyAnswers : (s.setR2 v).entropyAnswers = s.entropyAnswers := rfl
end

section
variable (s : State) (v : KgState)
@[simp] theorem State.setKgst_rk : (s.setKgst v).rk = s.rk := rfl
@[simp] theorem State.setKgst_keyed : (s.setKgst v).keyed = s.keyed := rfl
@[simp] theorem State.setKgst_chain : (s.setKgst v).chain = s.chain := rfl
@[simp] theorem State.setKgst_ivld : (s.setKgst v).ivld = s.ivld := rfl
@[simp] theorem State.setKgst_cells : (s.setKgst v).cells = s.cells := rfl
@[simp] theorem State.setKgst_r1 : (s.setKgst v).r1 = s.r1 := rfl
@[simp] theorem State.setKgst_r2 : (s.setKgst v).r2 = s.r2 := rfl
@[simp] theorem State.setKgst_kgst : (s.setKgst v).kgst = v := rfl
@[simp] theorem State.setKgst_din : (s.setKgst v).din = s.din := rfl
@[simp] theorem State.setKgst_pending : (s.setKgst v).pending = s.pending := rfl
@[simp] theorem State.setKgst_responses : (s.setKgst v).responses = s.responses := rfl
@[simp] theorem State.setKgst_draws : (s.setKgst v).draws = s.draws := rfl
@[simp] theorem State.setKgst_entropyAnswers : (s.setKgst v).entropyAnswers = s.entropyAnswers := rfl
end

section
variable (s : State)
@[simp] theorem State.countDraw_rk : (s.countDraw).rk = s.rk := rfl
@[simp] theorem State.countDraw_keyed : (s.countDraw).keyed = s.keyed := rfl
@[simp] theorem State.countDraw_chain : (s.countDraw).chain = s.chain := rfl
@[simp] theorem State.countDraw_ivld : (s.countDraw).ivld = s.ivld := rfl
@[simp] theorem State.countDraw_cells : (s.countDraw).cells = s.cells := rfl
@[simp] theorem State.countDraw_r1 : (s.countDraw).r1 = s.r1 := rfl
@[simp] theorem State.countDraw_r2 : (s.countDraw).r2 = s.r2 := rfl
@[simp] theorem State.countDraw_kgst : (s.countDraw).kgst = s.kgst := rfl
@[simp] theorem State.countDraw_din : (s.countDraw).din = s.din := rfl
@[simp] theorem State.countDraw_pending : (s.countDraw).pending = s.pending := rfl
@[simp] theorem State.countDraw_responses : (s.countDraw).responses = s.responses := rfl
@[simp] theorem State.countDraw_draws : (s.countDraw).draws = s.draws + 1 := rfl
@[simp] theorem State.countDraw_entropyAnswers : (s.countDraw).entropyAnswers = s.entropyAnswers := rfl
end

section
variable (s : State) (st : StatusCode) (d : Bytes)
@[simp] theorem State.respond_rk : (s.respond st d).rk = s.rk := rfl
@[simp] theorem State.respond_keyed : (s.respond st d).keyed = s.keyed := rfl
@[simp] theorem State.respond_chain : (s.respond st d).chain = s.chain := rfl
@[simp] theorem State.respond_ivld : (s.respond st d).ivld = s.ivld := rfl
@[simp] theorem State.respond_cells : (s.respond st d).cells = s.cells := rfl
@[simp] theorem State.respond_r1 : (s.respond st d).r1 = s.r1 := rfl
@[simp] theorem State.respond_r2 : (s.respond st d).r2 = s.r2 := rfl
@[simp] theorem State.respond_kgst : (s.respond st d).kgst = s.kgst := rfl
@[simp] theorem State.respond_din : (s.respond st d).din = s.din := rfl
@[simp] theorem State.respond_pending : (s.respond st d).pending = s.pending := rfl
@[simp] theorem State.respond_responses : (s.respond st d).responses = s.responses ++ [⟨st, d⟩] := rfl
@[simp] theorem State.respond_draws : (s.respond st d).draws = s.draws := rfl
@[simp] theorem State.respond_entropyAnswers : (s.respond st d).entropyAnswers = s.entropyAnswers := rfl
end

section
variable (s : State) (c : Command) (r : List PortEvent)
@[simp] theorem State.accept_rk : (s.accept c r).rk = s.rk := rfl
@[simp] theorem State.accept_keyed : (s.accept c r).keyed = s.keyed := rfl
@[simp] theorem State.accept_chain : (s.accept c r).chain = s.chain := rfl
@[simp] theorem State.accept_ivld : (s.accept c r).ivld = s.ivld := rfl
@[simp] theorem State.accept_cells : (s.accept c r).cells = s.cells := rfl
@[simp] theorem State.accept_r1 : (s.accept c r).r1 = s.r1 := rfl
@[simp] theorem State.accept_r2 : (s.accept c r).r2 = s.r2 := rfl
@[simp] theorem State.accept_kgst : (s.accept c r).kgst = s.kgst := rfl
@[simp] theorem State.accept_din : (s.accept c r).din = c.din := rfl
@[simp] theorem State.accept_pending : (s.accept c r).pending = r := rfl
@[simp] theorem State.accept_responses : (s.accept c r).responses = s.responses := rfl
@[simp] theorem State.accept_draws : (s.accept c r).draws = s.draws := rfl
@[simp] theorem State.accept_entropyAnswers : (s.accept c r).entropyAnswers = s.entropyAnswers := rfl
end

section
variable (s : State) (r : List PortEvent)
@[simp] theorem State.resetArrives_rk : (s.resetArrives r).rk = State.reset.rk := rfl
@[simp] theorem State.resetArrives_keyed : (s.resetArrives r).keyed = State.reset.keyed := rfl
@[simp] theorem State.resetArrives_chain : (s.resetArrives r).chain = State.reset.chain := rfl
@[simp] theorem State.resetArrives_ivld : (s.resetArrives r).ivld = State.reset.ivld := rfl
@[simp] theorem State.resetArrives_cells : (s.resetArrives r).cells = State.reset.cells := rfl
@[simp] theorem State.resetArrives_r1 : (s.resetArrives r).r1 = State.reset.r1 := rfl
@[simp] theorem State.resetArrives_r2 : (s.resetArrives r).r2 = State.reset.r2 := rfl
@[simp] theorem State.resetArrives_kgst : (s.resetArrives r).kgst = State.reset.kgst := rfl
@[simp] theorem State.resetArrives_din : (s.resetArrives r).din = State.reset.din := rfl
@[simp] theorem State.resetArrives_pending : (s.resetArrives r).pending = r := rfl
@[simp] theorem State.resetArrives_responses : (s.resetArrives r).responses = s.responses := rfl
@[simp] theorem State.resetArrives_draws : (s.resetArrives r).draws = s.draws := rfl
@[simp] theorem State.resetArrives_entropyAnswers : (s.resetArrives r).entropyAnswers = s.entropyAnswers := rfl
end

section
variable (s : State) (a : Bool) (r : List PortEvent)
@[simp] theorem State.switchEntropy_rk : (s.switchEntropy a r).rk = s.rk := rfl
@[simp] theorem State.switchEntropy_keyed : (s.switchEntropy a r).keyed = s.keyed := rfl
@[simp] theorem State.switchEntropy_chain : (s.switchEntropy a r).chain = s.chain := rfl
@[simp] theorem State.switchEntropy_ivld : (s.switchEntropy a r).ivld = s.ivld := rfl
@[simp] theorem State.switchEntropy_cells : (s.switchEntropy a r).cells = s.cells := rfl
@[simp] theorem State.switchEntropy_r1 : (s.switchEntropy a r).r1 = s.r1 := rfl
@[simp] theorem State.switchEntropy_r2 : (s.switchEntropy a r).r2 = s.r2 := rfl
@[simp] theorem State.switchEntropy_kgst : (s.switchEntropy a r).kgst = s.kgst := rfl
@[simp] theorem State.switchEntropy_din : (s.switchEntropy a r).din = s.din := rfl
@[simp] theorem State.switchEntropy_pending : (s.switchEntropy a r).pending = r := rfl
@[simp] theorem State.switchEntropy_responses : (s.switchEntropy a r).responses = s.responses := rfl
@[simp] theorem State.switchEntropy_draws : (s.switchEntropy a r).draws = s.draws := rfl
@[simp] theorem State.switchEntropy_entropyAnswers : (s.switchEntropy a r).entropyAnswers = a := rfl
end

section
variable (s : State) (g : Gen)
@[simp] theorem State.setGen_rk : (s.setGen g).rk = s.rk := rfl
@[simp] theorem State.setGen_keyed : (s.setGen g).keyed = s.keyed := rfl
@[simp] theorem State.setGen_chain : (s.setGen g).chain = s.chain := rfl
@[simp] theorem State.setGen_ivld : (s.setGen g).ivld = s.ivld := rfl
@[simp] theorem State.setGen_cells : (s.setGen g).cells = g.cells := rfl
@[simp] theorem State.setGen_r1 : (s.setGen g).r1 = g.r1 := rfl
@[simp] theorem State.setGen_r2 : (s.setGen g).r2 = g.r2 := rfl
@[simp] theorem State.setGen_kgst : (s.setGen g).kgst = s.kgst := rfl
@[simp] theorem State.setGen_din : (s.setGen g).din = s.din := rfl
@[simp] theorem State.setGen_pending : (s.setGen g).pending = s.pending := rfl
@[simp] theorem State.setGen_responses : (s.setGen g).responses = s.responses := rfl
@[simp] theorem State.setGen_draws : (s.setGen g).draws = s.draws := rfl
@[simp] theorem State.setGen_entropyAnswers : (s.setGen g).entropyAnswers = s.entropyAnswers := rfl
@[simp] theorem State.setGen_gen : (s.setGen g).gen = g := rfl
end

/-- The reset values of the flags (R270). -/
@[simp] theorem State.reset_keyed : State.reset.keyed = false := rfl
@[simp] theorem State.reset_ivld : State.reset.ivld = false := rfl
@[simp] theorem State.reset_kgst : State.reset.kgst = .uninitialized := rfl

end Sys2Proof.Machine
end

