-- ==== Sys2Proof/Laws/Keystream.lean ====
section
/-! SUPPORT. The shift register of Machine/Keystream.lean: what a step moves where, and that no new cell is 0. -/

namespace Sys2Proof.Machine

/-- The cells below the newest move down one place. -/
theorem shiftIn_getElem_lt (s : Cells) (c : Cell) (i : Nat) (h : i < 15) : (shiftIn s c)[i] = s[i + 1] := by
  simp [shiftIn, h]

/-- The newest cell is the one appended. -/
theorem shiftIn_getElem_last (s : Cells) (c : Cell) : (shiftIn s c)[15] = c := by
  simp [shiftIn]

/-- The new cell's value: the reduced sum, with P31 for 0 (R206). -/
theorem newCell_toNat (s : Cells) (u : Nat) :
    (newCell s u).toNat = if (feedback s + u) % p31 = 0 then p31 else (feedback s + u) % p31 := by
  have hp : p31 = 2147483647 := rfl
  have := Nat.mod_lt (feedback s + u) (show 0 < p31 by decide)
  simp only [newCell, BitVec.toNat_ofNat]
  apply Nat.mod_eq_of_lt
  split <;> omega

/-- The new cell is never 0 (R206). -/
theorem newCell_ne_zero (s : Cells) (u : Nat) : newCell s u ≠ 0 := by
  intro h
  have hp : p31 = 2147483647 := rfl
  have := newCell_toNat s u
  rw [h, show (0 : Cell).toNat = 0 from rfl] at this
  split at this <;> omega

/-- Every cell is in [1, 2^31 - 1] (R24). -/
def Cells.live (s : Cells) : Prop := ∀ i : Fin 16, s[i] ≠ 0

/-- A step keeps every cell non-zero. -/
theorem stepInit_live {s : Cells} (h : Cells.live s) (u : Nat) : Cells.live (stepInit s u) := by
  intro i
  by_cases hi : i.val < 15
  · have := shiftIn_getElem_lt s (newCell s u) i.val hi
    rw [Fin.getElem_fin, stepInit, this]
    exact h ⟨i.val + 1, by omega⟩
  · obtain rfl : i = 15 := by omega
    simpa [stepInit, shiftIn_getElem_last] using newCell_ne_zero s u

end Sys2Proof.Machine
end

