-- ==== Sys2Proof/Laws/Operands.lean ====
section
/-! SUPPORT. Byte strings, blocks and pieces: the laws of Machine/Operands.lean and of padding. -/

namespace Sys2Proof.Machine

@[simp] theorem blockBytes_length (b : Block) : (blockBytes b).length = 16 := by simp [blockBytes]

@[simp] theorem blockOf_getElem (b : Bytes) (i : Nat) (h : i < 16) : (blockOf b)[i] = b.getD i 0 := by
  simp [blockOf]

@[simp] theorem xorBlock_getElem (a b : Block) (i : Nat) (h : i < 16) : (xorBlock a b)[i] = a[i] ^^^ b[i] := by
  simp [xorBlock]

/-- A block read back from its own bytes. -/
@[simp] theorem blockOf_blockBytes (b : Block) : blockOf (blockBytes b) = b := by
  ext i hi
  simp [blockBytes, List.getD, hi]

/-- A 16-byte string is the bytes of its block. -/
theorem blockBytes_blockOf {b : Bytes} (h : b.length = 16) : blockBytes (blockOf b) = b := by
  apply List.ext_getElem (by simp [h])
  intro i h1 h2
  simp [blockBytes, h2]

theorem xorBlock_comm (a b : Block) : xorBlock a b = xorBlock b a := by
  ext i hi; simp [BitVec.xor_comm]

/-- A value XORed twice with the same value is itself. -/
@[simp] theorem xorBlock_cancel (a b : Block) : xorBlock (xorBlock a b) b = a := by
  ext i hi; simp

@[simp] theorem xorBlock_cancel_left (a b : Block) : xorBlock a (xorBlock a b) = b := by
  ext i hi; simp

@[simp] theorem xorBytes_length (a b : Bytes) : (xorBytes a b).length = min a.length b.length := by
  simp [xorBytes]

/-- A string XORed twice with a string at least as long is itself. -/
theorem xorBytes_cancel {a k : Bytes} (h : a.length ≤ k.length) : xorBytes (xorBytes a k) k = a := by
  induction a generalizing k with
  | nil => rfl
  | cons x xs ih =>
    cases k with
    | nil => simp at h
    | cons y ys =>
      simp only [xorBytes, List.zipWith_cons_cons, BitVec.xor_assoc, BitVec.xor_self, BitVec.xor_zero, List.cons.injEq,
        true_and]
      exact ih (by simpa using h)

/-- The four bytes of a word made of four bytes. -/
theorem b32_w32 (a b c d : Byte) : b32 (w32 a b c d) = [a, b, c, d] := by
  simp only [b32, w32, List.cons.injEq, and_true]
  refine ⟨?_, ?_, ?_, ?_⟩ <;> apply BitVec.eq_of_getLsbD_eq <;> intro i hi <;>
    simp only [BitVec.getLsbD_extractLsb', BitVec.getLsbD_append, hi, decide_true, Bool.true_and] <;>
    (repeat' split) <;> first | omega | (congr 1; omega)

/-- A word made of its own four bytes. -/
theorem w32_bytes (w : Word) :
    w32 (w.extractLsb' 24 8) (w.extractLsb' 16 8) (w.extractLsb' 8 8) (w.extractLsb' 0 8) = w := by
  rw [w32, BitVec.extractLsb'_append_extractLsb'_eq_extractLsb' (by decide),
    BitVec.extractLsb'_append_extractLsb'_eq_extractLsb' (by decide),
    BitVec.extractLsb'_append_extractLsb'_eq_extractLsb' (by decide)]
  exact BitVec.extractLsb'_eq_self

/-- The words of a block put back together. -/
@[simp] theorem bytes4_words4 (b : Block) :
    bytes4 (words4 b).a (words4 b).b (words4 b).c (words4 b).d = b := by
  apply Vector.toList_inj.mp
  simp only [bytes4, words4, b32_w32]
  apply List.ext_getElem (by simp)
  intro i h1 h2
  simp at h1
  interval_cases i <;> rfl

/-- The words of a block made of four words. -/
@[simp] theorem words4_bytes4 (a b c d : Word) : words4 (bytes4 a b c d) = ⟨a, b, c, d⟩ := by
  simp only [Quad.mk.injEq, words4]
  exact ⟨w32_bytes a, w32_bytes b, w32_bytes c, w32_bytes d⟩

/-- The number of pieces of a byte string. -/
@[simp] theorem chunks_length (n : Nat) (b : Bytes) : (chunks n b).length = n := by
  induction n generalizing b with
  | zero => rfl
  | succ n ih => simp [chunks, ih]

@[simp] theorem blocks_nil : blocks [] = [] := rfl

/-- The pieces of a non-empty string: its first 16 bytes, then the pieces of the rest. -/
theorem blocks_of_ne_nil {b : Bytes} (h : b ≠ []) : blocks b = b.take 16 :: blocks (b.drop 16) := by
  have hl : 0 < b.length := List.length_pos_iff.mpr h
  unfold blocks
  obtain ⟨n, hn⟩ : ∃ n, (b.length + 15) / 16 = n + 1 := ⟨(b.length + 15) / 16 - 1, by omega⟩
  have : ((b.drop 16).length + 15) / 16 = n := by simp; omega
  rw [hn, this, chunks]

/-- A whole piece in front of a string is its first piece. -/
theorem blocks_append_of_length {a : Bytes} (h : a.length = 16) (b : Bytes) : blocks (a ++ b) = a :: blocks b := by
  have hne : a ++ b ≠ [] := by intro hc; simp_all
  rw [blocks_of_ne_nil hne]
  simp [← h]

/-- The `k`-th piece is the 16 bytes from `16 k` on. -/
theorem chunks_getElem (n : Nat) (b : Bytes) (k : Nat) (h : k < (chunks n b).length) :
    (chunks n b)[k] = (b.drop (16 * k)).take 16 := by
  induction n generalizing b k with
  | zero => simp [chunks] at h
  | succ n ih =>
    cases k with
    | zero => simp [chunks]
    | succ k =>
      simp only [chunks, List.getElem_cons_succ]
      rw [ih, List.drop_drop]
      congr 2
      omega

@[simp] theorem joinBlocks_nil : joinBlocks [] = [] := rfl

@[simp] theorem joinBlocks_cons (b : Block) (bs : List Block) : joinBlocks (b :: bs) = blockBytes b ++ joinBlocks bs := rfl

@[simp] theorem joinBlocks_length (bs : List Block) : (joinBlocks bs).length = 16 * bs.length := by
  induction bs with
  | nil => rfl
  | cons b bs ih => simp [ih]; omega

/-- Blocks written out and split again. -/
@[simp] theorem wholeBlocks_joinBlocks (bs : List Block) : wholeBlocks (joinBlocks bs) = bs := by
  induction bs with
  | nil => rfl
  | cons b bs ih =>
    simp only [wholeBlocks, joinBlocks_cons] at *
    rw [blocks_append_of_length (by simp)]
    simp [ih]

theorem wholeBlocks_length (b : Bytes) : (wholeBlocks b).length = (b.length + 15) / 16 := by
  simp [wholeBlocks, blocks]

/-- A string whose length is a multiple of 16, split and written out again. -/
theorem joinBlocks_wholeBlocks {b : Bytes} (h : b.length % 16 = 0) : joinBlocks (wholeBlocks b) = b := by
  obtain ⟨n, hn⟩ : ∃ n, b.length = 16 * n := ⟨b.length / 16, by omega⟩
  induction n generalizing b with
  | zero => obtain rfl := List.eq_nil_of_length_eq_zero (by simpa using hn); rfl
  | succ n ih =>
    have hne : b ≠ [] := by rintro rfl; simp at hn
    have ht : (b.take 16).length = 16 := by simp; omega
    have := ih (b := b.drop 16) (by simp; omega) (by simp; omega)
    rw [wholeBlocks, blocks_of_ne_nil hne, List.map_cons, joinBlocks_cons, blockBytes_blockOf ht]
    rw [wholeBlocks] at this
    rw [this, List.take_append_drop]

/-- The padded length is the next multiple of 16 above the length (R160). -/
theorem pad_length (p : Bytes) : (pad p).length = 16 * (p.length / 16 + 1) := by
  simp [pad]; omega

theorem pad_length_mod (p : Bytes) : (pad p).length % 16 = 0 := by rw [pad_length]; omega

/-- A pad of `n` bytes of value `n` after any text is stripped (R161). -/
theorem unpad_append {n : Nat} (h1 : 1 ≤ n) (h2 : n ≤ 16) (body junk : Bytes) (hj : junk.length = n - 1) :
    unpad (body ++ junk ++ [BitVec.ofNat 8 n]) = some body := by
  have hn : (BitVec.ofNat 8 n).toNat = n := by simp; omega
  simp only [unpad, List.getLast?_concat, hn]
  rw [if_neg (by omega)]
  congr 1
  rw [List.append_assoc, List.length_append, List.take_append_of_le_length (by simp; omega)]
  simp [hj]; omega

/-- Unpad undoes Pad. -/
theorem unpad_pad (p : Bytes) : unpad (pad p) = some p := by
  simp only [pad]
  obtain ⟨m, hm⟩ : ∃ m, 16 - p.length % 16 = m + 1 := ⟨15 - p.length % 16, by omega⟩
  rw [hm, List.replicate_succ', ← List.append_assoc]
  exact unpad_append (by omega) (by omega) _ _ (by simp)

end Sys2Proof.Machine
end

