-- ==== Sys2Proof/Laws/Modes.lean ====
section
/-! SUPPORT. The chaining functions of Machine/Modes.lean: how many blocks they give, and that decryption undoes
encryption over any block function that has the matching inverse (the laws of 42_modes.md R178, said of the functions; the
statements EcbRoundTrip, CbcRoundTrip, CfbRoundTrip and OfbRoundTrip say them of the commands). -/

namespace Sys2Proof.Machine

variable (e d : Block → Block)

@[simp] theorem cbcEncrypt_length (v : Block) (ps : List Block) : (cbcEncrypt e v ps).1.length = ps.length := by
  induction ps generalizing v with
  | nil => rfl
  | cons p ps ih => simp [cbcEncrypt, ih]

@[simp] theorem cbcDecrypt_length (v : Block) (cs : List Block) : (cbcDecrypt d v cs).1.length = cs.length := by
  induction cs generalizing v with
  | nil => rfl
  | cons c cs ih => simp [cbcDecrypt, ih]

@[simp] theorem cfbEncrypt_length (v : Block) (ps : List Block) : (cfbEncrypt e v ps).1.length = ps.length := by
  induction ps generalizing v with
  | nil => rfl
  | cons p ps ih => simp [cfbEncrypt, ih]

@[simp] theorem cfbDecrypt_length (v : Block) (cs : List Block) : (cfbDecrypt e v cs).1.length = cs.length := by
  induction cs generalizing v with
  | nil => rfl
  | cons c cs ih => simp [cfbDecrypt, ih]

/-- OFB keeps the length of a message cut into pieces of at most 16 bytes. -/
theorem ofbCrypt_length (v : Block) (ps : List Bytes) (h : ∀ p ∈ ps, p.length ≤ 16) :
    (ofbCrypt e v ps).1.length = (ps.map List.length).sum := by
  induction ps generalizing v with
  | nil => rfl
  | cons p ps ih =>
    have hp : p.length ≤ 16 := h p (by simp)
    simp [ofbCrypt, ih _ fun q hq => h q (by simp [hq])]
    omega

/-- R178: CBC decryption over `d` undoes CBC encryption over `e`, and both end on the same chaining value. -/
theorem cbcDecrypt_cbcEncrypt (h : ∀ b, d (e b) = b) (v : Block) (ps : List Block) :
    cbcDecrypt d v (cbcEncrypt e v ps).1 = (ps, (cbcEncrypt e v ps).2) := by
  induction ps generalizing v with
  | nil => rfl
  | cons p ps ih => simp [cbcEncrypt, cbcDecrypt, ih, h]

/-- R178: CFB decryption undoes CFB encryption, whatever the block function, and both end on the same chaining value. -/
theorem cfbDecrypt_cfbEncrypt (v : Block) (ps : List Block) :
    cfbDecrypt e v (cfbEncrypt e v ps).1 = (ps, (cfbEncrypt e v ps).2) := by
  induction ps generalizing v with
  | nil => rfl
  | cons p ps ih => simp [cfbEncrypt, cfbDecrypt, ih]

/-- R178: OFB applied to its own output gives back a message of any length, and both end on the same chaining value. -/
theorem ofbCrypt_ofbCrypt (v : Block) (b : Bytes) :
    ofbCrypt e v (blocks (ofbCrypt e v (blocks b)).1) = (b, (ofbCrypt e v (blocks b)).2) := by
  induction h : b.length using Nat.strong_induction_on generalizing b v with
  | _ n ih =>
    by_cases hb : b = []
    · simp [hb, ofbCrypt]
    have hl := List.length_pos_iff.mpr hb
    have hrest := ih (b.drop 16).length (by simp; omega) (e v) (b.drop 16) rfl
    set k := (blockBytes (e v)).take (b.take 16).length with hk
    have hlen : (xorBytes (b.take 16) k).length = (b.take 16).length := by simp [hk]
    have hundo : xorBytes (xorBytes (b.take 16) k) k = b.take 16 := xorBytes_cancel (by simp [hk])
    rw [blocks_of_ne_nil hb]
    simp only [ofbCrypt, ← hk]
    by_cases hshort : b.length ≤ 16
    · have hne : xorBytes (b.take 16) k ≠ [] := by
        intro hc
        simp [hc] at hlen
        omega
      rw [List.drop_eq_nil_of_le hshort]
      simp only [blocks_nil, ofbCrypt, List.append_nil]
      rw [blocks_of_ne_nil hne, List.drop_eq_nil_of_le (by simp [hlen]), List.take_of_length_le (by simp [hlen])]
      simp only [ofbCrypt, blocks_nil, List.append_nil, hlen, ← hk, hundo]
      rw [List.take_of_length_le hshort]
    · rw [blocks_append_of_length (by rw [hlen]; simp; omega)]
      simp only [ofbCrypt, hrest, hlen, ← hk, hundo, List.take_append_drop]

end Sys2Proof.Machine
end

