-- ==== Sys2Proof/Laws/Ops.lean ====
section
/-! SUPPORT. What the shared operations of Machine/Ops.lean can do, each said once. -/

namespace Sys2Proof.Machine

variable {s t : State}

theorem State.raise_eq (s : State) (c : StatusCode) : s.raise c = .next (s.respond c []) := rfl

theorem State.emit_eq (s : State) (d : Bytes) : s.emit d = .next (s.respond .ok d) := rfl

@[simp] theorem State.raise_next {c : StatusCode} : s.raise c = .next t ↔ s.respond c [] = t := by
  simp [State.raise]

@[simp] theorem State.emit_next {d : Bytes} : s.emit d = .next t ↔ s.respond .ok d = t := by
  simp [State.emit]

@[simp] theorem State.raise_ne_fault {c : StatusCode} {f : Fault} : s.raise c ≠ .fault f := nofun

@[simp] theorem State.emit_ne_fault {d : Bytes} {f : Fault} : s.emit d ≠ .fault f := nofun

@[simp] theorem State.raise_ne_refused {c : StatusCode} {r : Refusal} : s.raise c ≠ .refused r := nofun

@[simp] theorem State.emit_ne_refused {d : Bytes} {r : Refusal} : s.emit d ≠ .refused r := nofun

/-- A port that answers hands on its bytes and counts the draw. -/
theorem State.drawEntropy_answers (use : Block → State → Result) (h : s.entropyAnswers = true) :
    s.drawEntropy use = use (Config.entropy s.draws) s.countDraw := by
  simp [State.drawEntropy, h]

/-- A port that does not answer leaves no step. -/
theorem State.drawEntropy_silent (use : Block → State → Result) (h : s.entropyAnswers = false) :
    s.drawEntropy use = .fault .entropyPortSilent := by
  simp [State.drawEntropy, h]

/-- If a draw leads to a next state, the port answered. -/
theorem State.drawEntropy_next {use : Block → State → Result} (h : s.drawEntropy use = .next t) :
    s.entropyAnswers = true ∧ use (Config.entropy s.draws) s.countDraw = .next t := by
  unfold State.drawEntropy at h
  split at h
  · exact ⟨‹_›, h⟩
  · cases h

/-- Two responses to one state are equal only when their codes and data are. -/
theorem State.respond_inj {a b : StatusCode} {d e : Bytes} (h : s.respond a d = s.respond b e) : a = b ∧ d = e := by
  simpa using congrArg State.responses h

/-- Two states with the same fields are the same state. -/
theorem State.eq_of_fields (h1 : s.rk = t.rk) (h2 : s.keyed = t.keyed) (h3 : s.chain = t.chain) (h4 : s.ivld = t.ivld)
    (h5 : s.cells = t.cells) (h6 : s.r1 = t.r1) (h7 : s.r2 = t.r2) (h8 : s.kgst = t.kgst) (h9 : s.din = t.din)
    (h10 : s.pending = t.pending) (h11 : s.responses = t.responses) (h12 : s.draws = t.draws)
    (h13 : s.entropyAnswers = t.entropyAnswers) : s = t := by
  cases s; cases t; simp_all

end Sys2Proof.Machine
end

