-- ==== Sys2Proof/Laws/Exec.lean ====
section
/-! SUPPORT. What one command can do, said once: it fails and changes nothing but the response log, or it completes with
the effect listed here, or (MA_SETIV from a silent entropy port) it faults. Later proofs cite these instead of unfolding a
meaning. -/

namespace Sys2Proof.Machine

/-- The effect of a command that completes with OK: from `s`, the state `u` before the response is given, and DOUT `d`. -/
def Completes (s u : State) (d : Bytes) : Instr → Prop
  | .bcSetkey =>
    s.din.length = 16 ∧ u = ((s.setRk (keyExpand (blockOf s.din))).setKeyed true).setIvld false ∧ d = []
  | .bcEnc => s.keyed = true ∧ s.din.length = 16 ∧ u = s ∧ d = blockBytes (encBlock s.rk (blockOf s.din))
  | .bcDec => s.keyed = true ∧ s.din.length = 16 ∧ u = s ∧ d = blockBytes (decBlock s.rk (blockOf s.din))
  | .maSetiv false => s.din.length = 16 ∧ u = (s.setChain (blockOf s.din)).setIvld true ∧ d = []
  | .maSetiv true =>
    s.din.length = 0 ∧ s.entropyAnswers = true ∧ u = (s.countDraw.setChain (Config.entropy s.draws)).setIvld true ∧ d = []
  | .ecbEnc => s.keyed = true ∧ u = s ∧ d = joinBlocks ((wholeBlocks (pad s.din)).map (encBlock s.rk))
  | .ecbDec =>
    s.keyed = true ∧ s.din.length % 16 = 0 ∧ u = s ∧
      unpad (joinBlocks ((wholeBlocks s.din).map (decBlock s.rk))) = some d
  | .cbcEnc =>
    s.keyed = true ∧ s.ivld = true ∧ u = s.setChain (cbcEncrypt (encBlock s.rk) s.chain (wholeBlocks (pad s.din))).2 ∧
      d = joinBlocks (cbcEncrypt (encBlock s.rk) s.chain (wholeBlocks (pad s.din))).1
  | .cbcDec =>
    s.keyed = true ∧ s.ivld = true ∧ s.din.length % 16 = 0 ∧
      u = s.setChain (cbcDecrypt (decBlock s.rk) s.chain (wholeBlocks s.din)).2 ∧
      unpad (joinBlocks (cbcDecrypt (decBlock s.rk) s.chain (wholeBlocks s.din)).1) = some d
  | .cfbEnc =>
    s.keyed = true ∧ s.ivld = true ∧ u = s.setChain (cfbEncrypt (encBlock s.rk) s.chain (wholeBlocks (pad s.din))).2 ∧
      d = blockBytes s.chain ++ joinBlocks (cfbEncrypt (encBlock s.rk) s.chain (wholeBlocks (pad s.din))).1
  | .cfbDec =>
    s.keyed = true ∧ 16 ≤ s.din.length ∧ (s.din.length - 16) % 16 = 0 ∧
      u = (s.setChain (cfbDecrypt (encBlock s.rk) (blockOf (s.din.take 16)) (wholeBlocks (s.din.drop 16))).2).setIvld
        true ∧
      unpad (joinBlocks (cfbDecrypt (encBlock s.rk) (blockOf (s.din.take 16)) (wholeBlocks (s.din.drop 16))).1) = some d
  | .ofbEnc =>
    s.keyed = true ∧ s.ivld = true ∧
      u = (s.setChain (ofbCrypt (encBlock s.rk) s.chain (blocks s.din)).2).setIvld true ∧
      d = blockBytes s.chain ++ (ofbCrypt (encBlock s.rk) s.chain (blocks s.din)).1
  | .ofbDec =>
    s.keyed = true ∧ 16 ≤ s.din.length ∧
      u = (s.setChain (ofbCrypt (encBlock s.rk) (blockOf (s.din.take 16)) (blocks (s.din.drop 16))).2).setIvld true ∧
      d = (ofbCrypt (encBlock s.rk) (blockOf (s.din.take 16)) (blocks (s.din.drop 16))).1
  | .kgInit klen =>
    klen = 16 ∧ s.din.length = 32 ∧
      u = (s.setGen (genInit (blockOf (s.din.take 16)) (blockOf (s.din.drop 16))).warmUp).setKgst .running ∧ d = []
  | .kgGen => s.din = [] ∧ s.kgst = .running ∧ u = s.setGen s.gen.advance ∧ d = b32 s.gen.word
  | .coreStatus => s.din = [] ∧ u = s ∧ d = b32 (statusView s.keyed s.ivld s.kgst)

/-- When a command fails, and with which status `c`: the first failing check of its rule. -/
def Fails (s : State) (c : StatusCode) : Instr → Prop
  | .bcSetkey => c = .invalidKeyLength ∧ s.din.length ≠ 16
  | .bcEnc | .bcDec =>
    (c = .notReady ∧ s.keyed = false) ∨ (c = .invalidBlockLength ∧ s.keyed = true ∧ s.din.length ≠ 16)
  | .maSetiv false => c = .invalidIvLength ∧ s.din.length ≠ 16
  | .maSetiv true => c = .invalidIvLength ∧ s.din.length ≠ 0
  | .ecbEnc => c = .notReady ∧ s.keyed = false
  | .ecbDec =>
    (c = .notReady ∧ s.keyed = false) ∨ (c = .invalidBlockLength ∧ s.keyed = true ∧ s.din.length % 16 ≠ 0) ∨
      (c = .malformedPadding ∧ s.keyed = true ∧ s.din.length % 16 = 0 ∧
        unpad (joinBlocks ((wholeBlocks s.din).map (decBlock s.rk))) = none)
  | .cbcEnc | .cfbEnc | .ofbEnc => c = .notReady ∧ (s.keyed = false ∨ s.ivld = false)
  | .cbcDec =>
    (c = .notReady ∧ (s.keyed = false ∨ s.ivld = false)) ∨
      (c = .invalidBlockLength ∧ s.keyed = true ∧ s.ivld = true ∧ s.din.length % 16 ≠ 0) ∨
      (c = .malformedPadding ∧ s.keyed = true ∧ s.ivld = true ∧ s.din.length % 16 = 0 ∧
        unpad (joinBlocks (cbcDecrypt (decBlock s.rk) s.chain (wholeBlocks s.din)).1) = none)
  | .cfbDec =>
    (c = .notReady ∧ s.keyed = false) ∨ (c = .inputTooShort ∧ s.keyed = true ∧ s.din.length < 16) ∨
      (c = .invalidBlockLength ∧ s.keyed = true ∧ 16 ≤ s.din.length ∧ (s.din.length - 16) % 16 ≠ 0) ∨
      (c = .malformedPadding ∧ s.keyed = true ∧ 16 ≤ s.din.length ∧ (s.din.length - 16) % 16 = 0 ∧
        unpad (joinBlocks (cfbDecrypt (encBlock s.rk) (blockOf (s.din.take 16)) (wholeBlocks (s.din.drop 16))).1) = none)
  | .ofbDec => (c = .notReady ∧ s.keyed = false) ∨ (c = .inputTooShort ∧ s.keyed = true ∧ s.din.length < 16)
  | .kgInit klen =>
    (c = .invalidKeyLength ∧ (klen ≠ 16 ∨ s.din.length < 16)) ∨
      (c = .invalidIvLength ∧ klen = 16 ∧ 16 ≤ s.din.length ∧ s.din.length ≠ 32)
  | .kgGen => (c = .illegalCommand ∧ s.din ≠ []) ∨ (c = .notReady ∧ s.din = [] ∧ s.kgst ≠ .running)
  | .coreStatus => c = .illegalCommand ∧ s.din ≠ []

/-- How a command that answers a next state ends: it fails with a status and an empty DOUT, or it completes. -/
def Ends (s t : State) (i : Instr) : Prop :=
  (∃ c, Fails s c i ∧ t = s.respond c []) ∨ ∃ u d, Completes s u d i ∧ t = u.respond .ok d

theorem Ends.failed {s t : State} {i : Instr} {c : StatusCode} (hc : Fails s c i) (h : s.raise c = .next t) :
    Ends s t i :=
  .inl ⟨c, hc, (State.raise_next.mp h).symm⟩

theorem Ends.completed {s t u : State} {i : Instr} {d : Bytes} (hc : Completes s u d i) (h : u.emit d = .next t) :
    Ends s t i :=
  .inr ⟨u, d, hc, (State.emit_next.mp h).symm⟩

theorem execBcSetkey_next {s t : State} (h : execBcSetkey s = .next t) : Ends s t .bcSetkey := by
  unfold execBcSetkey at h
  split at h
  · exact .failed (⟨rfl, ‹_›⟩) h
  rename_i h0
  exact .completed ⟨by omega, rfl, rfl⟩ h

theorem execBcEnc_next {s t : State} (h : execBcEnc s = .next t) : Ends s t .bcEnc := by
  unfold execBcEnc at h
  split at h
  · exact .failed (.inl ⟨rfl, ‹_›⟩) h
  rename_i hk
  rw [Bool.not_eq_false] at hk
  split at h
  · exact .failed (.inr ⟨rfl, hk, ‹_›⟩) h
  rename_i h1
  exact .completed ⟨hk, by omega, rfl, rfl⟩ h

theorem execBcDec_next {s t : State} (h : execBcDec s = .next t) : Ends s t .bcDec := by
  unfold execBcDec at h
  split at h
  · exact .failed (.inl ⟨rfl, ‹_›⟩) h
  rename_i hk
  rw [Bool.not_eq_false] at hk
  split at h
  · exact .failed (.inr ⟨rfl, hk, ‹_›⟩) h
  rename_i h1
  exact .completed ⟨hk, by omega, rfl, rfl⟩ h

theorem execEcbEnc_next {s t : State} (h : execEcbEnc s = .next t) : Ends s t .ecbEnc := by
  unfold execEcbEnc at h
  split at h
  · exact .failed (⟨rfl, ‹_›⟩) h
  rename_i hk
  rw [Bool.not_eq_false] at hk
  exact .completed ⟨hk, rfl, rfl⟩ h

theorem execEcbDec_next {s t : State} (h : execEcbDec s = .next t) : Ends s t .ecbDec := by
  unfold execEcbDec at h
  split at h
  · exact .failed (.inl ⟨rfl, ‹_›⟩) h
  rename_i hk
  rw [Bool.not_eq_false] at hk
  split at h
  · exact .failed (.inr (.inl ⟨rfl, hk, ‹_›⟩)) h
  rename_i h1
  split at h
  · exact .failed (.inr (.inr ⟨rfl, hk, by omega, ‹_›⟩)) h
  rename_i hm
  exact .completed ⟨hk, by omega, rfl, hm⟩ h

theorem execCbcEnc_next {s t : State} (h : execCbcEnc s = .next t) : Ends s t .cbcEnc := by
  unfold execCbcEnc at h
  split at h
  · exact .failed (⟨rfl, .inl ‹_›⟩) h
  rename_i hk
  rw [Bool.not_eq_false] at hk
  split at h
  · exact .failed (⟨rfl, .inr ‹_›⟩) h
  rename_i hv
  rw [Bool.not_eq_false] at hv
  exact .completed ⟨hk, hv, rfl, rfl⟩ h

theorem execCbcDec_next {s t : State} (h : execCbcDec s = .next t) : Ends s t .cbcDec := by
  unfold execCbcDec at h
  split at h
  · exact .failed (.inl ⟨rfl, .inl ‹_›⟩) h
  rename_i hk
  rw [Bool.not_eq_false] at hk
  split at h
  · exact .failed (.inl ⟨rfl, .inr ‹_›⟩) h
  rename_i hv
  rw [Bool.not_eq_false] at hv
  split at h
  · exact .failed (.inr (.inl ⟨rfl, hk, hv, ‹_›⟩)) h
  rename_i h2
  dsimp only at h
  split at h
  · exact .failed (.inr (.inr ⟨rfl, hk, hv, by omega, ‹_›⟩)) h
  rename_i hm
  exact .completed ⟨hk, hv, by omega, rfl, hm⟩ h

theorem execCfbEnc_next {s t : State} (h : execCfbEnc s = .next t) : Ends s t .cfbEnc := by
  unfold execCfbEnc at h
  split at h
  · exact .failed (⟨rfl, .inl ‹_›⟩) h
  rename_i hk
  rw [Bool.not_eq_false] at hk
  split at h
  · exact .failed (⟨rfl, .inr ‹_›⟩) h
  rename_i hv
  rw [Bool.not_eq_false] at hv
  exact .completed ⟨hk, hv, rfl, rfl⟩ h

theorem execCfbDec_next {s t : State} (h : execCfbDec s = .next t) : Ends s t .cfbDec := by
  unfold execCfbDec at h
  split at h
  · exact .failed (.inl ⟨rfl, ‹_›⟩) h
  rename_i hk
  rw [Bool.not_eq_false] at hk
  split at h
  · exact .failed (.inr (.inl ⟨rfl, hk, ‹_›⟩)) h
  rename_i h1
  split at h
  · exact .failed (.inr (.inr (.inl ⟨rfl, hk, by omega, ‹_›⟩))) h
  rename_i h2
  dsimp only at h
  split at h
  · exact .failed (.inr (.inr (.inr ⟨rfl, hk, by omega, by omega, ‹_›⟩))) h
  rename_i hm
  exact .completed ⟨hk, by omega, by omega, rfl, hm⟩ h

theorem execOfbEnc_next {s t : State} (h : execOfbEnc s = .next t) : Ends s t .ofbEnc := by
  unfold execOfbEnc at h
  split at h
  · exact .failed (⟨rfl, .inl ‹_›⟩) h
  rename_i hk
  rw [Bool.not_eq_false] at hk
  split at h
  · exact .failed (⟨rfl, .inr ‹_›⟩) h
  rename_i hv
  rw [Bool.not_eq_false] at hv
  exact .completed ⟨hk, hv, rfl, rfl⟩ h

theorem execOfbDec_next {s t : State} (h : execOfbDec s = .next t) : Ends s t .ofbDec := by
  unfold execOfbDec at h
  split at h
  · exact .failed (.inl ⟨rfl, ‹_›⟩) h
  rename_i hk
  rw [Bool.not_eq_false] at hk
  split at h
  · exact .failed (.inr ⟨rfl, hk, ‹_›⟩) h
  rename_i h1
  exact .completed ⟨hk, by omega, rfl, rfl⟩ h

theorem execKgInit_next {s t : State} {klen : Nat} (h : execKgInit klen s = .next t) : Ends s t (.kgInit klen) := by
  unfold execKgInit at h
  split at h
  · exact .failed (.inl ⟨rfl, ‹_›⟩) h
  rename_i h0
  split at h
  · exact .failed (.inr ⟨rfl, by omega, by omega, by omega⟩) h
  rename_i h1
  exact .completed ⟨by omega, by omega, rfl, rfl⟩ h

theorem execKgGen_next {s t : State} (h : execKgGen s = .next t) : Ends s t .kgGen := by
  unfold execKgGen at h
  split at h
  · exact .failed (.inl ⟨rfl, fun hd => by simp_all⟩) h
  rename_i h0
  split at h
  · exact .failed (.inr ⟨rfl, List.length_eq_zero_iff.mp (by omega), ‹_›⟩) h
  rename_i hr
  exact .completed ⟨List.length_eq_zero_iff.mp (by omega), by simpa using hr, rfl, rfl⟩ h

theorem execCoreStatus_next {s t : State} (h : execCoreStatus s = .next t) : Ends s t .coreStatus := by
  unfold execCoreStatus at h
  split at h
  · exact .failed (⟨rfl, fun hd => by simp_all⟩) h
  rename_i h0
  exact .completed ⟨List.length_eq_zero_iff.mp (by omega), rfl, rfl⟩ h

theorem execMaSetiv_next {s t : State} {rnd : Bool} (h : execMaSetiv rnd s = .next t) : Ends s t (.maSetiv rnd) := by
  unfold execMaSetiv at h
  cases rnd
  · dsimp only at h
    split at h
    · exact .failed ⟨rfl, ‹_›⟩ h
    exact .completed ⟨by omega, rfl, rfl⟩ h
  · dsimp only at h
    split at h
    · exact .failed ⟨rfl, ‹_›⟩ h
    obtain ⟨ha, hu⟩ := State.drawEntropy_next h
    exact .completed ⟨by omega, ha, rfl, rfl⟩ hu

/-- A failing command's status is not OK. -/
theorem Fails.ne_ok {s : State} {c : StatusCode} {i : Instr} (h : Fails s c i) : c ≠ .ok := by
  rintro rfl
  cases i
  case maSetiv rnd => cases rnd <;> simp [Fails] at h
  all_goals simp [Fails] at h

/-- A completing command leaves the ports alone but for its own response. -/
theorem Completes.ports {s u : State} {d : Bytes} {i : Instr} (h : Completes s u d i) :
    u.responses = s.responses ∧ u.pending = s.pending ∧ u.din = s.din ∧ u.entropyAnswers = s.entropyAnswers := by
  cases i
  case maSetiv rnd => cases rnd <;> (simp only [Completes] at h; simp [h])
  all_goals (simp only [Completes] at h; simp [h])

/-- A command that answers a next state has failed with a status and an empty DOUT, or has completed. -/
theorem exec_next {i : Instr} {s t : State} (h : exec i s = .next t) : Ends s t i := by
  cases i
  case bcSetkey => exact execBcSetkey_next h
  case bcEnc => exact execBcEnc_next h
  case bcDec => exact execBcDec_next h
  case maSetiv => exact execMaSetiv_next h
  case ecbEnc => exact execEcbEnc_next h
  case ecbDec => exact execEcbDec_next h
  case cbcEnc => exact execCbcEnc_next h
  case cbcDec => exact execCbcDec_next h
  case cfbEnc => exact execCfbEnc_next h
  case cfbDec => exact execCfbDec_next h
  case ofbEnc => exact execOfbEnc_next h
  case ofbDec => exact execOfbDec_next h
  case kgInit => exact execKgInit_next h
  case kgGen => exact execKgGen_next h
  case coreStatus => exact execCoreStatus_next h

/-- A command stops only when it draws from an entropy port that does not answer. -/
theorem exec_fault {i : Instr} {s : State} {f : Fault} (h : exec i s = .fault f) :
    i = .maSetiv true ∧ s.din = [] ∧ s.entropyAnswers = false := by
  cases i
  case maSetiv rnd =>
    cases rnd
    · simp only [exec, execMaSetiv] at h
      split at h <;> simp_all
    · simp only [exec, execMaSetiv, State.drawEntropy] at h
      (repeat' split at h) <;> simp_all
  all_goals
    simp only [exec, execBcSetkey, execBcEnc, execBcDec, execEcbEnc, execEcbDec, execCbcEnc, execCbcDec, execCfbEnc,
      execCfbDec, execOfbEnc, execOfbDec, execKgInit, execKgGen, execCoreStatus] at h
    (repeat' split at h) <;> simp_all

/-- No command is refused. -/
theorem exec_not_refused (i : Instr) (s : State) (r : Refusal) : exec i s ≠ .refused r := by
  intro h
  cases i
  case maSetiv rnd =>
    cases rnd
    · simp only [exec, execMaSetiv] at h
      split at h <;> simp_all
    · simp only [exec, execMaSetiv, State.drawEntropy] at h
      (repeat' split at h) <;> simp_all
  all_goals
    simp only [exec, execBcSetkey, execBcEnc, execBcDec, execEcbEnc, execEcbDec, execCbcEnc, execCbcDec, execCfbEnc,
      execCfbDec, execOfbEnc, execOfbDec, execKgInit, execKgGen, execCoreStatus] at h
    (repeat' split at h) <;> simp_all

end Sys2Proof.Machine
end

