-- ==== Sys2Proof/Laws/PerInstr.lean ====
section
/-! SUPPORT. Statements made of every instruction, one lemma per constructor. -/

namespace Sys2Proof.Laws

/-- A well-formed command's word matches the opcode map's row of its own mnemonic (30_encoding.md R74). -/
def RowMatch.Statement (i : Instr) : Prop :=
  i.wf = true → ∃ r ∈ opcodeMap, r.mnemonic = i.mnemonic ∧ r.hits (encode i) = true

theorem RowMatch.bcSetkey : RowMatch.Statement .bcSetkey := fun _ => by decide

theorem RowMatch.bcEnc : RowMatch.Statement .bcEnc := fun _ => by decide

theorem RowMatch.bcDec : RowMatch.Statement .bcDec := fun _ => by decide

theorem RowMatch.maSetiv (rnd : Bool) : RowMatch.Statement (.maSetiv rnd) := fun _ => by cases rnd <;> decide

theorem RowMatch.ecbEnc : RowMatch.Statement .ecbEnc := fun _ => by decide

theorem RowMatch.ecbDec : RowMatch.Statement .ecbDec := fun _ => by decide

theorem RowMatch.cbcEnc : RowMatch.Statement .cbcEnc := fun _ => by decide

theorem RowMatch.cbcDec : RowMatch.Statement .cbcDec := fun _ => by decide

theorem RowMatch.cfbEnc : RowMatch.Statement .cfbEnc := fun _ => by decide

theorem RowMatch.cfbDec : RowMatch.Statement .cfbDec := fun _ => by decide

theorem RowMatch.ofbEnc : RowMatch.Statement .ofbEnc := fun _ => by decide

theorem RowMatch.ofbDec : RowMatch.Statement .ofbDec := fun _ => by decide

/-- The mask of KG_INIT leaves ARG free. -/
theorem kgInitWord_masked : ∀ a : Byte, cmdWord a 0x20 &&& 0xFFFF00FF = 0x00000020 := by decide

theorem RowMatch.kgInit (klen : Nat) : RowMatch.Statement (.kgInit klen) := fun _ =>
  ⟨⟨"KG_INIT", 0x00000020, 0xFFFF00FF⟩, by decide, rfl, by simpa [OpRow.hits, encode] using kgInitWord_masked (BitVec.ofNat 8 klen)⟩

theorem RowMatch.kgGen : RowMatch.Statement .kgGen := fun _ => by decide

theorem RowMatch.coreStatus : RowMatch.Statement .coreStatus := fun _ => by decide

end Sys2Proof.Laws
end

