-- ==== Sys2Proof/Laws/Step.lean ====
section
/-! SUPPORT. What one step can do, said once: it idles, serves a command, serves a reset, or serves a change of the entropy
port. -/

namespace Sys2Proof.Machine

/-- What serving a command word led to, from the state `a` that accepted it. -/
def ServedWord (a t : State) (cmd : Word) : Prop :=
  (decode cmd = none ∧ t = a.respond .illegalCommand []) ∨ ∃ i, decode cmd = some i ∧ exec i a = .next t

theorem runWord_next {a t : State} {cmd : Word} (h : runWord a cmd = .next t) : ServedWord a t cmd := by
  unfold runWord at h
  split at h
  · exact .inl ⟨‹_›, (State.raise_next.mp h).symm⟩
  · exact .inr ⟨_, ‹_›, h⟩

/-- The four ways a step reaches a next state. -/
inductive Stepped (s t : State) : Prop
  | idle (hp : s.pending = []) (ht : t = s)
  | command (c : Command) (rest : List PortEvent) (hp : s.pending = .command c :: rest)
      (hl : c.din.length ≤ Config.maxDinBytes) (ht : ServedWord (s.accept c rest) t c.cmd)
  | reset (a : Option Command) (rest : List PortEvent) (hp : s.pending = .reset a :: rest) (ht : t = s.resetArrives rest)
  | entropyPort (b : Bool) (rest : List PortEvent) (hp : s.pending = .entropyPort b :: rest)
      (ht : t = s.switchEntropy b rest)

theorem step_next {s t : State} (h : step s = .next t) : Stepped s t := by
  unfold step at h
  split at h
  · exact .idle ‹_› (by injection h with h; exact h.symm)
  · rename_i e rest hp
    unfold serve at h
    split at h
    · split at h
      · exact .command _ _ hp ‹_› (runWord_next h)
      · cases h
    · exact .reset _ _ hp (by injection h with h; exact h.symm)
    · exact .entropyPort _ _ hp (by injection h with h; exact h.symm)

end Sys2Proof.Machine
end

