-- ==== Sys2Proof/Tests/Slice0.lean ====
section
/-! SUPPORT. The model's own tests: ill-formed terms refused, one hand-written word per command, at most two single-command
tests per command with the values of 95_test_vectors.md, and for every statement with hypotheses a state and operands that
meet them (witness_…). -/

namespace Sys2Proof.Tests

set_option Elab.async false

open Sys2Proof Sys2Proof.Machine

/-! ## Helpers -/

/-- The `n` bytes of a number, the most significant first. -/
def bytesOf (n w : Nat) : Bytes := (List.range n).map fun i => BitVec.ofNat 8 (w >>> (8 * (n - 1 - i)))

/-- The 16-byte block of a number, the most significant byte first. -/
def block (w : Nat) : Block := blockOf (bytesOf 16 w)

/-- K, the standard key of 95_test_vectors.md. -/
def keyK : Nat := 0x0123456789abcdeffedcba9876543210

/-- IV, the standard IV of 95_test_vectors.md. -/
def ivStd : Nat := 0x000102030405060708090a0b0c0d0e0f

/-- rk[0..31] of key K, as V-BC-3 prints it. -/
def schedK : Schedule := #v[
  0xf12186f9, 0x41662b61, 0x5a6ab19a, 0x7ba92077, 0x367360f4, 0x776a0c61, 0xb6bb89b3, 0x24763151,
  0xa520307c, 0xb7584dbd, 0xc30753ed, 0x7ee55b57, 0x6988608c, 0x30d895b7, 0x44ba14af, 0x104495a1,
  0xd120b428, 0x73b55fa3, 0xcc874966, 0x92244439, 0xe89e641f, 0x98ca015a, 0xc7159060, 0x99e1fd2e,
  0xb79bd80c, 0x1d2115b0, 0x0e228aeb, 0xf1780c81, 0x428d3654, 0x62293496, 0x01cf72e5, 0x9124a012]

/-- S[0..15] after the warm-up for the all-ones key and IV, as V-KG-6 prints it. -/
def cellsOnes : Cells := #v[
  0x1291d190, 0x25554227, 0x36c09187, 0x0697773b, 0x443cf9cd, 0x6a4cd899, 0x49e34bd0, 0x56130b14,
  0x20e8f24c, 0x7a5b1dcc, 0x0c3cc2d1, 0x1cc082c8, 0x7f5904a2, 0x55b61ce8, 0x1fe46106, 0x13f56dbf]

/-- After reset, with `d` as the command's DIN. -/
def fresh (d : Bytes) : State := { State.reset with din := d }

/-- After BC_SETKEY K, with `d` as the command's DIN. -/
def keyedK (d : Bytes) : State := { fresh d with rk := schedK, keyed := true }

/-- After BC_SETKEY K and MA_SETIV IV, with `d` as the command's DIN. -/
def keyedIv (d : Bytes) : State := { keyedK d with chain := block ivStd, ivld := true }

/-- After KG_INIT with the all-ones key and IV, with `d` as the command's DIN. -/
def runningOnes (d : Bytes) : State :=
  { fresh d with cells := cellsOnes, r1 := 0xaa131b11, r2 := 0x09d7706c, kgst := .running }

/-- The state with one command waiting on the port. -/
def offered (s : State) (cmd : Word) (d : Bytes) : State := { s with pending := [.command ⟨cmd, d⟩] }

/-- The next state of an outcome that has one. -/
def ended : Result → Option State
  | .next t => some t
  | .fault _ => none
  | .refused _ => none

/-- The fault of an outcome that is one. -/
def stopped : Result → Option Fault
  | .next _ => none
  | .fault f => some f
  | .refused _ => none

/-- The command's last response. -/
def reply (i : Instr) (s : State) : Option Response := (ended (exec i s)).bind fun t => t.responses.getLast?

/-- CHAIN and IVLD after the command. -/
def chainAfter (i : Instr) (s : State) : Option (Block × Bool) := (ended (exec i s)).map fun t => (t.chain, t.ivld)

/-! ## Well-formedness: the one check, KLEN at most 255 -/

theorem test_wf_refuses_klen_256 : (Instr.kgInit 256).wf = false := by decide

theorem test_wf_admits_klen_255 : (Instr.kgInit 255).wf = true := by decide

/-! ## Decoding: one word per constructor, written out from R71 and R74 -/

theorem test_decode_bc :
    decode 0b0000000000000000_00000000_00000001 = some .bcSetkey ∧
    decode 0b0000000000000000_00000000_00000010 = some .bcEnc ∧
    decode 0b0000000000000000_00000000_00000011 = some .bcDec := by decide +kernel

theorem test_decode_ma :
    decode 0b0000000000000000_00000000_00010000 = some (.maSetiv false) ∧
    decode 0b0000000000000000_00000001_00010000 = some (.maSetiv true) ∧
    decode 0b0000000000000000_00000000_00010001 = some .ecbEnc ∧
    decode 0b0000000000000000_00000000_00010010 = some .ecbDec ∧
    decode 0b0000000000000000_00000000_00010011 = some .cbcEnc ∧
    decode 0b0000000000000000_00000000_00010100 = some .cbcDec ∧
    decode 0b0000000000000000_00000000_00010101 = some .cfbEnc ∧
    decode 0b0000000000000000_00000000_00010110 = some .cfbDec ∧
    decode 0b0000000000000000_00000000_00010111 = some .ofbEnc ∧
    decode 0b0000000000000000_00000000_00011000 = some .ofbDec := by decide +kernel

theorem test_decode_kg_and_status :
    decode 0b0000000000000000_00000000_00100000 = some (.kgInit 0) ∧
    decode 0b0000000000000000_00010000_00100000 = some (.kgInit 16) ∧
    decode 0b0000000000000000_11111111_00100000 = some (.kgInit 255) ∧
    decode 0b0000000000000000_00000000_00100001 = some .kgGen ∧
    decode 0b0000000000000000_00000000_00110000 = some .coreStatus := by decide +kernel

/-- V-ENC-1, the illegal words. -/
theorem test_decode_illegal :
    [(0x00000101 : Word), 0x00010001, 0x00000000, 0x00000004, 0x00000210, 0x00000031, 0x0000007F, 0x80000030].map decode =
      List.replicate 8 none := by decide +kernel

theorem test_decode_table_word :
    decodeTableWord 32 0x00001020 = some (.kgInit 16) ∧ decodeTableWord 32 0x00000210 = none := by decide +kernel

/-! ## Primitives (V-BC-1, V-BC-2, V-KG-1 to V-KG-3, V-KG-8 to V-KG-10) -/

theorem test_bc_primitives :
    [(0x01234567 : Word), 0x80000001].map (fun x => (tau x, diffuse x, diffuseKey x, roundT x, keyT x)) =
      [(0x90F473A2, 0xFA26EB37, 0xDA0F34E1, 0x6EF180C9, 0xCFC85B85),
       (0xEAD6D690, 0x81860607, 0x80C03001, 0xD07EB2F5, 0x7871A0A1)] := by decide +kernel

theorem test_tables :
    [(0x00 : Byte), 0x01, 0x80, 0xFF].map (fun x => (sbox x, s0 x, s1 x)) =
      [(0xD6, 0x3E, 0x55), (0x90, 0x72, 0xC2), (0xEA, 0xB1, 0xAD), (0x48, 0x60, 0xF2)] := by decide +kernel

theorem test_kg_primitives :
    [(0x01234567 : Word), 0xFA26EB37].map (fun x => (diffuse1 x, diffuse2 x, sg x)) =
      [(0xFA26EB37, 0x6AB77BA6, 0x7296EDFB), (0x12345670, 0x55771133, 0x1945B705)] := by decide +kernel

theorem test_load_ones :
    (loadCells (block (2 ^ 128 - 1)) (block (2 ^ 128 - 1))) =
      #v[0x7fc4d7ff, 0x7fa6bcff, 0x7fe26bff, 0x7f935eff, 0x7fd789ff, 0x7fb5e2ff, 0x7ff135ff, 0x7f89afff,
         0x7fcd78ff, 0x7faf13ff, 0x7febc4ff, 0x7f9af1ff, 0x7fde26ff, 0x7fbc4dff, 0x7ff89aff, 0x7fc7acff] := by
  decide +kernel

/-- V-KG-8: the feedback sum 0 becomes 2^31 - 1, and with u = 5 it becomes 5. -/
theorem test_zero_sum :
    let s : Cells := (Vector.replicate 16 1).set 0 0x4DB21B64
    (stepWork s)[15] = 0x7FFFFFFF ∧ (stepInit s 5)[15] = 5 := by decide +kernel

theorem test_first_words :
    (genInit (block 0x3d4c4be96a82fdaeb58f641db17b455b) (block 0x84319aa8de6915ca1f6bda6bfbd8c766)).warmUp.word =
      0x14f1c272 ∧ (genInit (block 0) (block 0)).warmUp.word = 0x27bede74 := by decide +kernel

/-- V-MA-1. -/
theorem test_padding :
    pad [0xaa] = 0xaa :: List.replicate 15 0x0f ∧ pad [] = List.replicate 16 0x10 ∧
      unpad (List.replicate 15 0x05 ++ [0x03]) = some (List.replicate 13 0x05) ∧
      unpad (List.replicate 15 0x00 ++ [0x11]) = none ∧ unpad [] = none := by decide +kernel

/-! ## Commands -/

/-- V-BC-3, V-BC-7: the schedule is V-BC-3's, and IVLD is cleared. -/
theorem test_bc_setkey :
    ended (exec .bcSetkey { keyedIv (bytesOf 16 keyK) with rk := Vector.replicate 32 0 }) =
      some (State.respond { keyedIv (bytesOf 16 keyK) with ivld := false } .ok []) := by decide +kernel

theorem test_bc_setkey_15_bytes : reply .bcSetkey (fresh (bytesOf 15 keyK)) = some ⟨.invalidKeyLength, []⟩ := by
  decide +kernel

/-- V-BC-5. -/
theorem test_bc_enc :
    reply .bcEnc (keyedK (bytesOf 16 keyK)) = some ⟨.ok, bytesOf 16 0x681edf34d206965e86b3e94f536e4246⟩ := by
  decide +kernel

theorem test_bc_enc_unkeyed : reply .bcEnc (fresh (bytesOf 16 keyK)) = some ⟨.notReady, []⟩ := by decide +kernel

theorem test_bc_dec :
    reply .bcDec (keyedK (bytesOf 16 0x2677f46b09c122cc975533105bd4a22a)) = some ⟨.ok, bytesOf 16 0⟩ := by
  decide +kernel

theorem test_bc_dec_17_bytes : reply .bcDec (keyedK (bytesOf 17 0)) = some ⟨.invalidBlockLength, []⟩ := by
  decide +kernel

/-- V-MA-7: no key is needed. -/
theorem test_ma_setiv :
    chainAfter (.maSetiv false) (fresh (bytesOf 16 ivStd)) = some (block ivStd, true) := by decide +kernel

/-- V-MA-7: a drawn IV needs an empty DIN, and a failed draw is none. -/
theorem test_ma_setiv_rnd_with_din :
    ended (exec (.maSetiv true) (keyedK (bytesOf 16 ivStd))) =
      some ((keyedK (bytesOf 16 ivStd)).respond .invalidIvLength []) := by decide +kernel

/-- V-MA-2, 17 bytes. -/
theorem test_ecb_enc :
    reply .ecbEnc (keyedK (bytesOf 17 0x303132333435363738393a3b3c3d3e3f40)) =
      some ⟨.ok, bytesOf 32 0xd55bfd68e7901219f41fab48427ab58d79c284c5b863922485f29601d49c72ef⟩ := by decide +kernel

/-- V-MA-6: only the final byte is checked. -/
theorem test_ecb_dec :
    reply .ecbDec (keyedK (bytesOf 16 0xd12dd9c29a1da175fa312732362a6f28)) =
      some ⟨.ok, List.replicate 13 0x05⟩ := by decide +kernel

theorem test_ecb_dec_malformed :
    reply .ecbDec (keyedK (bytesOf 16 0x9b89c43821157e5fda5765858cc6942d)) = some ⟨.malformedPadding, []⟩ := by
  decide +kernel

/-- V-MA-3, 17 bytes. -/
theorem test_cbc_enc :
    reply .cbcEnc (keyedIv (bytesOf 17 0x303132333435363738393a3b3c3d3e3f40)) =
        some ⟨.ok, bytesOf 32 0x54207c48e501eaf62c3ef5337df44eb3cbe48597cd4edb76671a071a23fb9537⟩ ∧
      chainAfter .cbcEnc (keyedIv (bytesOf 17 0x303132333435363738393a3b3c3d3e3f40)) =
        some (block 0xcbe48597cd4edb76671a071a23fb9537, true) := by decide +kernel

theorem test_cbc_dec :
    reply .cbcDec (keyedIv (bytesOf 32 0x54207c48e501eaf62c3ef5337df44eb3cbe48597cd4edb76671a071a23fb9537)) =
      some ⟨.ok, bytesOf 17 0x303132333435363738393a3b3c3d3e3f40⟩ := by decide +kernel

/-- V-MA-6, R163: CHAIN stays when the padding is malformed. -/
theorem test_cbc_dec_keeps_chain :
    ended (exec .cbcDec (keyedIv (bytesOf 16 0x06989c613da668ad2a8df782e1a8f96a))) =
      some ((keyedIv (bytesOf 16 0x06989c613da668ad2a8df782e1a8f96a)).respond .malformedPadding []) := by
  decide +kernel

/-- V-MA-4, 15 bytes. -/
theorem test_cfb_enc :
    reply .cfbEnc (keyedIv (bytesOf 15 0x303132333435363738393a3b3c3d3e)) =
        some ⟨.ok, bytesOf 32 0x000102030405060708090a0b0c0d0e0f36a9ae5209935e9a12b4cdb9dd95c76b⟩ ∧
      chainAfter .cfbEnc (keyedIv (bytesOf 15 0x303132333435363738393a3b3c3d3e)) =
        some (block 0x36a9ae5209935e9a12b4cdb9dd95c76b, true) := by decide +kernel

/-- V-MA-4, from a core without an IV. -/
theorem test_cfb_dec :
    reply .cfbDec (keyedK (bytesOf 32 0x000102030405060708090a0b0c0d0e0f6797936e32a967a22582f88deea7f665)) =
        some ⟨.ok, [0x61]⟩ ∧
      chainAfter .cfbDec (keyedK (bytesOf 32 0x000102030405060708090a0b0c0d0e0f6797936e32a967a22582f88deea7f665)) =
        some (block 0x6797936e32a967a22582f88deea7f665, true) := by decide +kernel

theorem test_cfb_dec_unkeyed_short : reply .cfbDec (fresh (bytesOf 5 0)) = some ⟨.notReady, []⟩ := by decide +kernel

/-- V-MA-5, 17 bytes: CHAIN is the whole last keystream block. -/
theorem test_ofb_enc :
    reply .ofbEnc (keyedIv (bytesOf 17 0x303132333435363738393a3b3c3d3e3f40)) =
        some ⟨.ok, bytesOf 33 0x000102030405060708090a0b0c0d0e0f36a9ae5209935e9a12b4cdb9dd95c755b3⟩ ∧
      chainAfter .ofbEnc (keyedIv (bytesOf 17 0x303132333435363738393a3b3c3d3e3f40)) =
        some (block 0xf3ef424cb7835a7d615fec94dd23e820, true) := by decide +kernel

/-- V-MA-6: the prefix stands in for the IV. -/
theorem test_ofb_dec :
    reply .ofbDec (keyedK (bytesOf 17 0x000102030405060708090a0b0c0d0e0f67)) = some ⟨.ok, [0x61]⟩ ∧
      chainAfter .ofbDec (keyedK (bytesOf 17 0x000102030405060708090a0b0c0d0e0f67)) =
        some (block 0x06989c613da668ad2a8df782e1a8f96a, true) := by decide +kernel

theorem test_ofb_dec_short : reply .ofbDec (keyedK (bytesOf 15 0)) = some ⟨.inputTooShort, []⟩ := by decide +kernel

/-- V-KG-6: the generator right after KG_INIT. -/
theorem test_kg_init :
    ended (exec (.kgInit 16) (fresh (bytesOf 32 (2 ^ 256 - 1)))) =
      some ((runningOnes (bytesOf 32 (2 ^ 256 - 1))).respond .ok []) := by decide +kernel

/-- V-KG-11: the key length is checked first. -/
theorem test_kg_init_lengths :
    reply (.kgInit 15) (fresh (bytesOf 32 0)) = some ⟨.invalidKeyLength, []⟩ ∧
      reply (.kgInit 16) (fresh (bytesOf 15 0)) = some ⟨.invalidKeyLength, []⟩ ∧
      reply (.kgInit 16) (fresh (bytesOf 33 0)) = some ⟨.invalidIvLength, []⟩ := by decide +kernel

/-- V-KG-6: z1. -/
theorem test_kg_gen : reply .kgGen (runningOnes []) = some ⟨.ok, bytesOf 4 0x0657cfa0⟩ := by decide +kernel

theorem test_kg_gen_with_din : reply .kgGen (fresh [0x78]) = some ⟨.illegalCommand, []⟩ := by decide +kernel

/-- V-ENC-2: all three units set up. -/
theorem test_core_status :
    reply .coreStatus { runningOnes [] with keyed := true, ivld := true } = some ⟨.ok, [0x00, 0x00, 0x00, 0x0B]⟩ := by
  decide +kernel

/-! ## The port -/

/-- `withFetchWord` presents a command that the very next ended (step serves. -/
theorem test_fetch_word_after_reset :
    ended (step (State.reset.withFetchWord 32 0x00000030)) = some (State.reset.respond .ok [0x00, 0x00, 0x00, 0x00]) := by
  decide +kernel

/-! ## Witnesses: states and operands that meet each statement's hypotheses -/

theorem witness_DecodeOfEncode : (Instr.kgInit 255).wf = true ∧ decode (encode (.kgInit 255)) = some (.kgInit 255) := by
  decide +kernel

theorem witness_EncodeOfDecode : decode 0x0000FF20 = some (.kgInit 255) := by decide +kernel

/-- One word for each way of being illegal, at the ends of the ranges of R75, the last of them on the port. -/
theorem witness_IllegalWordsAnswerIllegalCommand :
    (∀ w ∈ [(0x00 : Word), 0x04, 0x0F, 0x19, 0x1F, 0x22, 0x2F, 0x31, 0xFF, 0x0101, 0x0210, 0xFF10, 0x00010020],
      IllegalWord w) ∧ ([0x31] : Bytes).length ≤ Config.maxDinBytes ∧
      ended (step (offered State.reset 0x00010020 [0x31])) =
        some (State.respond { State.reset with din := [0x31] } .illegalCommand []) := by
  refine ⟨?_, by decide +kernel, by decide +kernel⟩
  simp only [List.forall_mem_cons, List.not_mem_nil, false_implies, implies_true, and_true]
  unfold IllegalWord
  dsimp only
  and_intros <;> decide +kernel

theorem witness_StepRunsDecodedCommand :
    (offered (keyedK []) 0x00000002 (bytesOf 16 keyK)).pending = [.command ⟨0x00000002, bytesOf 16 keyK⟩] ∧
      (bytesOf 16 keyK).length ≤ Config.maxDinBytes ∧ decode 0x00000002 = some .bcEnc ∧
      ended (step (offered (keyedK []) 0x00000002 (bytesOf 16 keyK))) = ended (exec .bcEnc (keyedK (bytesOf 16 keyK))) := by
  decide +kernel

/-- A DIN one byte over the limit, and a command that answers one response. -/
theorem witness_PortLengthLimits :
    (∃ d : Bytes, (offered State.reset 0x30 d).pending = [.command ⟨0x30, d⟩] ∧ Config.maxDinBytes < d.length) ∧
      ended (step (offered State.reset 0x30 [])) = some (State.reset.respond .ok [0, 0, 0, 0]) ∧
      (State.reset.respond .ok [0, 0, 0, 0]).responses =
        (offered State.reset 0x30 []).responses ++ [⟨.ok, [0, 0, 0, 0]⟩] :=
  ⟨⟨List.replicate (Config.maxDinBytes + 1) 0, rfl, by simp⟩, by decide +kernel, by decide +kernel⟩

theorem witness_IdleChangesNothing : State.reset.pending = [] := by decide

/-- A command that is answered, and one that draws from a silent port. -/
theorem witness_EveryCommandIsAnsweredOrStuck :
    (offered State.reset 0x01 []).pending = [.command ⟨0x01, []⟩] ∧ ([] : Bytes).length ≤ Config.maxDinBytes ∧
      ended (step (offered State.reset 0x01 [])) = some (State.reset.respond .invalidKeyLength []) ∧
      stopped (step (offered { State.reset with entropyAnswers := false } 0x0110 [])) = some .entropyPortSilent := by
  decide +kernel

/-- A reset that interrupts a command of a core whose flags are all set. -/
theorem witness_ResetClearsFlagsAndAbandons :
    let s : State := { runningOnes [] with keyed := true, ivld := true, pending := [.reset (some ⟨0x02, []⟩)] }
    s.pending = [.reset (some ⟨0x02, []⟩)] ∧ s.keyed = true ∧ s.kgst = .running := by decide +kernel

theorem witness_OnlySetupCommandsCompleteAfterReset :
    ended (exec .kgGen (fresh [])) = some ((fresh []).respond .notReady []) ∧
      ended (exec .ofbDec (fresh [0x61])) = some ((fresh [0x61]).respond .notReady []) ∧
      ended (exec (.kgInit 16) (fresh (bytesOf 32 (2 ^ 256 - 1)))) =
        some ((runningOnes (bytesOf 32 (2 ^ 256 - 1))).respond .ok []) := by decide +kernel

theorem witness_FailedCommandChangesNothing :
    ended (step (offered (keyedIv []) 0x12 [0x61])) = some ((keyedIv [0x61]).respond .invalidBlockLength []) ∧
      ((keyedIv [0x61]).respond .invalidBlockLength []).responses =
        (offered (keyedIv []) 0x12 [0x61]).responses ++ [⟨.invalidBlockLength, []⟩] := by decide +kernel

/-- Every status is raised by some command. -/
theorem witness_StatusCodesHaveTheirRaisers :
    ended (exec .bcSetkey (fresh [])) = some ((fresh []).respond .invalidKeyLength []) ∧
      ended (exec (.maSetiv false) (fresh [])) = some ((fresh []).respond .invalidIvLength []) ∧
      ended (exec .bcEnc (keyedK [])) = some ((keyedK []).respond .invalidBlockLength []) ∧
      ended (exec .ecbDec (keyedK [])) = some ((keyedK []).respond .malformedPadding []) ∧
      ended (exec .ofbDec (keyedK [])) = some ((keyedK []).respond .inputTooShort []) ∧
      ended (exec .coreStatus (fresh [0])) = some ((fresh [0]).respond .illegalCommand []) ∧
      ended (exec .kgGen (fresh [])) = some ((fresh []).respond .notReady []) := by decide +kernel

theorem witness_NotReadyExactlyWhenStateMissing :
    ¬(Instr.cbcEnc = .kgGen ∧ (keyedK []).din ≠ []) ∧ ¬ Ready (keyedK []) .cbcEnc ∧ Ready (keyedIv []) .cbcEnc := by
  unfold Ready
  decide +kernel

/-- Each clause's premises, at the boundary lengths. -/
theorem witness_ErrorPriority :
    decode 0x00 = none ∧ (fresh [0]).din ≠ [] ∧ (fresh []).keyed = false ∧ (keyedK []).ivld = false ∧
      ((fresh []).din = [] ∧ (fresh []).kgst ≠ .running) ∧ (fresh (bytesOf 15 0)).din.length < 16 ∧
      (16 ≤ (fresh (bytesOf 16 0)).din.length ∧ (fresh (bytesOf 16 0)).din.length ≠ 32) ∧
      ((keyedK (bytesOf 15 0)).keyed = true ∧ (keyedK (bytesOf 15 0)).din.length < 16) ∧
      ((keyedK (bytesOf 17 0)).keyed = true ∧ 16 ≤ (keyedK (bytesOf 17 0)).din.length ∧
        (keyedK (bytesOf 17 0)).din.length % 16 ≠ 0) ∧
      ended (exec .cfbDec (keyedK (bytesOf 16 0))) = some ((keyedK (bytesOf 16 0)).respond .malformedPadding []) := by
  decide +kernel

/-- The smallest and the largest rotation, and last indices. -/
theorem witness_DiffusionsAreLinear : (0 < 1 ∧ 1 < 32) ∧ 0 < 31 ∧ 31 < 32 := by decide

theorem witness_KeyScheduleRecurrence : 31 < 32 ∧ (keyExpand (block keyK))[31] = 0x9124A012 := by decide +kernel

theorem witness_CipherRoundRecurrence :
    31 < 32 ∧ block keyK =
      #v[0x01, 0x23, 0x45, 0x67, 0x89, 0xAB, 0xCD, 0xEF, 0xFE, 0xDC, 0xBA, 0x98, 0x76, 0x54, 0x32, 0x10] := by
  decide +kernel

theorem witness_LoadPacksCells : 15 < 16 ∧ (loadCells (block 0) (block 0))[15] = 0x0047ac00 := by decide +kernel

theorem witness_BcSetkeyLoadsSchedule :
    (fresh (bytesOf 16 keyK)).din.length = 16 ∧ (fresh (bytesOf 17 0)).din.length ≠ 16 := by decide +kernel

theorem witness_BcEncDecAnswerOneBlock :
    ((keyedK (bytesOf 16 keyK)).keyed = true ∧ (keyedK (bytesOf 16 keyK)).din.length = 16) ∧
      ((keyedK (bytesOf 15 0)).keyed = true ∧ (keyedK (bytesOf 15 0)).din.length ≠ 16) ∧ (fresh []).keyed = false := by
  decide +kernel

theorem witness_MaSetivLoadsChain :
    (opField 0x00000210 = 0x10 ∧ (argField 0x00000210).extractLsb' 1 7 ≠ 0) ∧
    (fresh (bytesOf 16 ivStd)).din.length = 16 ∧ (fresh (bytesOf 15 0)).din.length ≠ 16 ∧
      ((fresh []).din = [] ∧ (fresh []).entropyAnswers = true) ∧ (fresh [0]).din ≠ [] := by decide +kernel

/-- The drawn IV completes, whatever the port delivers. -/
theorem witness_MaSetiv_draw :
    ((ended (exec (.maSetiv true) (fresh []))).map fun t => (t.ivld, t.draws, t.responses)) =
      some (true, 1, [⟨.ok, []⟩]) := by decide +kernel

theorem witness_SilentEntropyPortIsStuck :
    ({ State.reset with entropyAnswers := false } : State).din = [] ∧
      stopped (exec (.maSetiv true) { State.reset with entropyAnswers := false }) = some .entropyPortSilent := by decide +kernel

/-- The last byte of a padded string at 0, 1, 16 and 17. -/
theorem witness_UnpadChecksFinalByteOnly :
    ((0 : Byte).toNat < 1 ∨ 16 < (0 : Byte).toNat) ∧ ((17 : Byte).toNat < 1 ∨ 16 < (17 : Byte).toNat) ∧
      (1 ≤ (1 : Byte).toNat ∧ (1 : Byte).toNat ≤ 16 ∧ ([] : Bytes).length + 1 = (1 : Byte).toNat) ∧
      (1 ≤ (16 : Byte).toNat ∧ (16 : Byte).toNat ≤ 16 ∧ (bytesOf 15 0).length + 1 = (16 : Byte).toNat) := by
  decide +kernel

theorem witness_EcbEncEncryptsEachBlock : (keyedK []).keyed = true ∧ (fresh []).keyed = false := by decide +kernel

/-- A block whose padding is whole, one whose padding is malformed, and a length that is no multiple of 16. -/
theorem witness_EcbDecDecryptsEachBlock :
    ((keyedK (bytesOf 16 0x002a8a4efa863ccad024ac0300bb40d2)).din.length % 16 = 0 ∧
      reply .ecbDec (keyedK (bytesOf 16 0x002a8a4efa863ccad024ac0300bb40d2)) = some ⟨.ok, []⟩) ∧
    ((keyedK []).din.length % 16 = 0 ∧ reply .ecbDec (keyedK []) = some ⟨.malformedPadding, []⟩) ∧
    (keyedK (bytesOf 17 0)).din.length % 16 ≠ 0 ∧ (fresh []).keyed = false := by decide +kernel

theorem witness_CbcEncChainsCiphertext :
    ((keyedIv []).keyed = true ∧ (keyedIv []).ivld = true) ∧ (keyedK []).ivld = false := by decide +kernel

theorem witness_CbcDecChainsCiphertext :
    ((keyedIv (bytesOf 16 0x4b910651754b5553f10cfa0c8a09e9e5)).keyed = true ∧
      (keyedIv (bytesOf 16 0x4b910651754b5553f10cfa0c8a09e9e5)).ivld = true ∧
      (keyedIv (bytesOf 16 0x4b910651754b5553f10cfa0c8a09e9e5)).din.length % 16 = 0 ∧
      reply .cbcDec (keyedIv (bytesOf 16 0x4b910651754b5553f10cfa0c8a09e9e5)) = some ⟨.ok, []⟩) ∧
    reply .cbcDec (keyedIv []) = some ⟨.malformedPadding, []⟩ ∧ (keyedIv (bytesOf 15 0)).din.length % 16 ≠ 0 ∧
    (keyedK []).ivld = false := by decide +kernel

theorem witness_CfbEncFeedsCiphertextBack :
    ((keyedIv []).keyed = true ∧ (keyedIv []).ivld = true) ∧ (keyedK []).ivld = false := by decide +kernel

/-- A prefix with a whole block after it, a prefix alone, and the two wrong lengths next to it. -/
theorem witness_CfbDecStartsFromPrefix :
    reply .cfbDec (keyedK (bytesOf 32 0x000102030405060708090a0b0c0d0e0f16888c712db678bd3a9de792f1b8e97a)) =
      some ⟨.ok, []⟩ ∧
    ((keyedK (bytesOf 16 0)).keyed = true ∧ 16 ≤ (keyedK (bytesOf 16 0)).din.length ∧
      (keyedK (bytesOf 16 0)).din.length % 16 = 0 ∧
      reply .cfbDec (keyedK (bytesOf 16 0)) = some ⟨.malformedPadding, []⟩) ∧
    (keyedK (bytesOf 15 0)).din.length < 16 ∧ (keyedK (bytesOf 17 0)).din.length % 16 ≠ 0 ∧ (fresh []).keyed = false := by
  decide +kernel

theorem witness_OfbEncAppliesKeystream :
    ((keyedIv []).keyed = true ∧ (keyedIv []).ivld = true) ∧ (keyedK []).ivld = false := by decide +kernel

theorem witness_OfbDecStartsFromPrefix :
    ((keyedK (bytesOf 16 0)).keyed = true ∧ 16 ≤ (keyedK (bytesOf 16 0)).din.length) ∧
      (keyedK (bytesOf 15 0)).din.length < 16 ∧ (fresh []).keyed = false := by decide +kernel

/-- The four round trips: an encrypting core, and a decrypting one that has been given its output (§8, length 0 or 1). -/
theorem witness_EcbRoundTrip :
    reply .ecbEnc (keyedK [0x61]) = some ⟨.ok, bytesOf 16 0x6c17f0abcf4ea86add6345764f1d3976⟩ ∧
      reply .ecbDec (keyedK (bytesOf 16 0x6c17f0abcf4ea86add6345764f1d3976)) = some ⟨.ok, [0x61]⟩ := by decide +kernel

theorem witness_CbcRoundTrip :
    reply .cbcEnc (keyedIv [0x61]) = some ⟨.ok, bytesOf 16 0xb7345cf955c28f7ec20590ab3c1f2b8f⟩ ∧
      reply .cbcDec (keyedIv (bytesOf 16 0xb7345cf955c28f7ec20590ab3c1f2b8f)) = some ⟨.ok, [0x61]⟩ := by decide +kernel

theorem witness_CfbRoundTrip :
    reply .cfbEnc (keyedIv []) =
        some ⟨.ok, bytesOf 32 0x000102030405060708090a0b0c0d0e0f16888c712db678bd3a9de792f1b8e97a⟩ ∧
      reply .cfbDec (keyedK (bytesOf 32 0x000102030405060708090a0b0c0d0e0f16888c712db678bd3a9de792f1b8e97a)) =
        some ⟨.ok, []⟩ := by decide +kernel

theorem witness_OfbRoundTrip :
    reply .ofbEnc (keyedIv [0x61]) = some ⟨.ok, bytesOf 17 0x000102030405060708090a0b0c0d0e0f67⟩ ∧
      reply .ofbDec (keyedK (bytesOf 17 0x000102030405060708090a0b0c0d0e0f67)) = some ⟨.ok, [0x61]⟩ := by decide +kernel

/-- Two messages of 16 bytes and 1 byte: the CHAIN after the first is the one the second starts from. -/
theorem witness_OfbContinuesItsChain :
    let s := keyedIv (bytesOf 16 0x303132333435363738393a3b3c3d3e3f)
    let t := { keyedK [0x40] with chain := block 0x06989c613da668ad2a8df782e1a8f96a, ivld := true }
    (s.keyed = true ∧ s.ivld = true ∧ s.din.length % 16 = 0) ∧ chainAfter .ofbEnc s = some (t.chain, true) ∧
      (t.keyed = true ∧ t.ivld = true ∧ t.rk = s.rk) ∧
      reply .ofbEnc t = some ⟨.ok, bytesOf 17 0x06989c613da668ad2a8df782e1a8f96ab3⟩ := by decide +kernel

theorem witness_RekeyDropsIv :
    (keyedIv (bytesOf 16 keyK)).din.length = 16 ∧
      ended (exec .bcSetkey (keyedIv (bytesOf 16 keyK))) =
        some (State.respond { keyedIv (bytesOf 16 keyK) with ivld := false } .ok []) := by decide +kernel

theorem witness_RegisterStepFeedsBack :
    14 < 15 ∧ (stepInit (Vector.replicate 16 1) 0)[15] = 0x00328101 ∧
      (stepInit (Vector.replicate 16 1) 0x7FFFFFFF)[15] = 0x00328101 := by decide +kernel

theorem witness_KgInitStartsGenerator :
    (fresh (bytesOf 32 0)).din.length = 32 ∧ (15 ≠ 16 ∨ (fresh (bytesOf 32 0)).din.length < 16) ∧
      (16 ≠ 16 ∨ (fresh (bytesOf 15 0)).din.length < 16) ∧
      (16 ≤ (fresh (bytesOf 31 0)).din.length ∧ (fresh (bytesOf 31 0)).din.length ≠ 32) := by decide +kernel

theorem witness_KgGenProducesNextWord :
    ((runningOnes []).din = [] ∧ (runningOnes []).kgst = .running) ∧
      ((fresh []).din = [] ∧ (fresh []).kgst ≠ .running) ∧ (runningOnes [0x78]).din ≠ [] := by decide +kernel

theorem witness_KnownAnswerKeystream :
    (fresh (bytesOf 32 0)).din = List.replicate 32 0x00 ∧
      (fresh (bytesOf 32 (2 ^ 256 - 1))).din = List.replicate 32 0xFF := by decide +kernel

/-- A key of 17 bytes, a key of 16 bytes with an IV of 15, and the legal form. -/
theorem witness_KgInitJudgesKeyAndIvApart :
    (AsmLine.kgInit (bytesOf 17 0) (bytesOf 16 0)).expand = some ⟨0x00001120, bytesOf 33 0⟩ ∧
      (AsmLine.kgInit (bytesOf 16 0) (bytesOf 15 0)).expand = some ⟨0x00001020, bytesOf 31 0⟩ ∧
      (AsmLine.kgInit (bytesOf 16 0) (bytesOf 16 0)).expand = some ⟨0x00001020, bytesOf 32 0⟩ ∧
      (AsmLine.kgInit (bytesOf 256 0) []).expand = none := by decide +kernel

/-- Two cores with the same generator whose other registers differ. -/
theorem witness_GeneratorSharesNoState :
    let t : State := { runningOnes [] with rk := schedK, keyed := true, chain := block ivStd, ivld := true }
    let s := runningOnes []
    s ≠ t ∧ s.din = t.din ∧ s.cells = t.cells ∧ s.r1 = t.r1 ∧ s.r2 = t.r2 ∧ s.kgst = t.kgst := by decide +kernel

/-- Each KGST, the last with the value V-ENC-2 gives for KG_INIT alone. -/
theorem witness_CoreStatusReadsView :
    ((keyedIv []).din = [] ∧ (keyedIv []).kgst = .uninitialized) ∧
      (({ fresh [] with kgst := .initializing } : State).din = [] ∧
        ({ fresh [] with kgst := .initializing } : State).kgst = .initializing) ∧
      ((runningOnes []).din = [] ∧ (runningOnes []).kgst = .running ∧
        reply .coreStatus (runningOnes []) = some ⟨.ok, [0x00, 0x00, 0x00, 0x08]⟩) ∧
      (fresh [0]).din ≠ [] := by decide +kernel

/-- A change of the entropy port on a core whose registers are set, and a command of each unit that changes that unit's
registers. -/
theorem witness_RegistersHaveTheirWriters :
    ended (step { keyedIv [] with pending := [.entropyPort false] }) =
        some { keyedIv [] with entropyAnswers := false } ∧
    ended (exec .bcSetkey (fresh (bytesOf 16 keyK))) = some ((keyedK (bytesOf 16 keyK)).respond .ok []) ∧
      ended (exec (.maSetiv false) (keyedK (bytesOf 16 ivStd))) = some ((keyedIv (bytesOf 16 ivStd)).respond .ok []) ∧
      ended (exec (.kgInit 16) (fresh (bytesOf 32 (2 ^ 256 - 1)))) =
        some ((runningOnes (bytesOf 32 (2 ^ 256 - 1))).respond .ok []) := by decide +kernel

/-- A keyed core and a running one that serve a command. -/
theorem witness_ReadinessLastsUntilReset :
    ended (step (offered (keyedK []) 0x30 [])) = some ((keyedK []).respond .ok [0, 0, 0, 1]) ∧
      ended (step (offered (runningOnes []) 0x30 [])) = some ((runningOnes []).respond .ok [0, 0, 0, 8]) ∧
      (∀ a rest, (offered (keyedK []) 0x30 []).pending ≠ .reset a :: rest) ∧
      ∀ a rest, (offered (runningOnes []) 0x30 []).pending ≠ .reset a :: rest :=
  ⟨by decide +kernel, by decide +kernel, nofun, nofun⟩

/-- A running generator with a failed response behind it takes a step. -/
theorem witness_StepKeepsInvariant :
    let s : State := { runningOnes [] with responses := [⟨.notReady, []⟩] }
    s.Inv ∧ ended (step (offered s 0x30 [])) = some (s.respond .ok [0, 0, 0, 8]) :=
  ⟨⟨by decide +kernel, by decide +kernel, by decide +kernel⟩, by decide +kernel⟩

/-- Two different states that the flags make alike. -/
theorem witness_GatedRegistersAreUnobservable :
    let t : State := { State.reset with rk := schedK, chain := block ivStd, cells := cellsOnes, r1 := 1, r2 := 2 }
    State.reset ≠ t ∧ State.reset.Alike t :=
  ⟨by decide +kernel, ⟨rfl, rfl, rfl, rfl, rfl, rfl, rfl, rfl, nofun, nofun, nofun⟩⟩

end Sys2Proof.Tests
end

section
/-! PROOFS of the statements of 00_scope.md: byte order of words and blocks (R13, R51, R54), rotations and diffusions (R11,
R102, R103, R109, R110). -/

namespace Sys2Proof.Machine

/-- `W32` read as a number: the first byte is the most significant (R13). -/
theorem w32_toNat (a b c d : Byte) :
    (w32 a b c d).toNat = 2 ^ 24 * a.toNat + 2 ^ 16 * b.toNat + 2 ^ 8 * c.toNat + d.toNat := by
  have hb := b.isLt
  have hc := c.isLt
  have hd := d.isLt
  simp only [w32, BitVec.toNat_append]
  rw [← Nat.shiftLeft_add_eq_or_of_lt hb, ← Nat.shiftLeft_add_eq_or_of_lt hc, ← Nat.shiftLeft_add_eq_or_of_lt hd]
  simp only [Nat.shiftLeft_eq]
  omega

/-- `B32` read as numbers: the most significant byte leaves first (R13, R54). -/
theorem b32_map_toNat (w : Word) :
    (b32 w).map BitVec.toNat =
      [w.toNat / 2 ^ 24, w.toNat / 2 ^ 16 % 256, w.toNat / 2 ^ 8 % 256, w.toNat % 256] := by
  have top : w.toNat / 2 ^ 24 < 2 ^ 8 := by omega
  simp only [b32, List.map_cons, List.map_nil, BitVec.extractLsb'_toNat, Nat.shiftRight_eq_div_pow, Nat.mod_eq_of_lt top,
    Nat.pow_zero, Nat.div_one]

/-- The bytes of a block made of four words are the words' bytes in order (R13). -/
@[simp] theorem blockBytes_bytes4 (a b c d : Word) :
    blockBytes (bytes4 a b c d) = b32 a ++ b32 b ++ b32 c ++ b32 d := rfl

/-- The model's rotation is the library's in the range R11 gives it. -/
theorem rotl_eq_rotateLeft (a : Word) {n : Nat} (hn : n < 32) : rotl a n = a.rotateLeft n :=
  (BitVec.rotateLeft_eq_rotateLeftAux_of_lt hn).symm

/-- A rotation distributes over exclusive or: bit `i` of it is one bit of its argument, from the top when `i < n`. -/
theorem rotl_xor (a b : Word) {n : Nat} (hn : n < 32) : rotl (a ^^^ b) n = rotl a n ^^^ rotl b n := by
  simp only [rotl_eq_rotateLeft _ hn]
  apply BitVec.eq_of_getLsbD_eq
  intro i hi
  by_cases h : i < n
  · simp [Nat.mod_eq_of_lt hn, h]
  · simp [Nat.mod_eq_of_lt hn, h, hi]

theorem diffuse_xor (a b : Word) : diffuse (a ^^^ b) = diffuse a ^^^ diffuse b := by
  simp only [diffuse, rotl_xor a b, Nat.reduceLT]
  ac_rfl

theorem diffuseKey_xor (a b : Word) : diffuseKey (a ^^^ b) = diffuseKey a ^^^ diffuseKey b := by
  simp only [diffuseKey, rotl_xor a b, Nat.reduceLT]
  ac_rfl

theorem diffuse2_xor (a b : Word) : diffuse2 (a ^^^ b) = diffuse2 a ^^^ diffuse2 b := by
  simp only [diffuse2, rotl_xor a b, Nat.reduceLT]
  ac_rfl

/-- L1 and L rotate by the same counts (R109). -/
theorem diffuse1_eq_diffuse (a : Word) : diffuse1 a = diffuse a := rfl

/-- Settles O17: the numbers of one word each way, and `words4_bytes4` for the round trip. -/
theorem blocksAreBigEndian : Obligations.BlocksAreBigEndian := by
  refine ⟨fun b => ?_, b32_map_toNat, fun a b c d => ⟨blockBytes_bytes4 a b c d, words4_bytes4 a b c d⟩⟩
  exact ⟨w32_toNat .., w32_toNat .., w32_toNat .., w32_toNat ..⟩

/-- Settles O19: the rotation is the library's and is linear, and each diffusion is an exclusive or of rotations. -/
theorem diffusionsAreLinear : Obligations.DiffusionsAreLinear := by
  refine ⟨fun a n _ hn => rotl_eq_rotateLeft a hn, fun a => ?_, fun a b => ?_, diffuse1_eq_diffuse⟩
  · simp only [diffuse1_eq_diffuse, diffuse, diffuseKey, diffuse2, rotl_eq_rotateLeft, Nat.reduceLT, and_self]
  · simp only [diffuse1_eq_diffuse]
    exact ⟨diffuse_xor a b, diffuseKey_xor a b, diffuse_xor a b, diffuse2_xor a b⟩

end Sys2Proof.Machine
end

section
/-! PROOFS of the statements of 10_state.md: the registers and their writers (R20 to R26), what the flags hide (I1, I14),
the machine invariant (R24, R77, R211), and reset (R270, R271). -/

namespace Sys2Proof.Machine

/-! ## Serving one event -/

/-- A reset at the head of the port is served whatever it interrupts (R270). -/
theorem step_reset {s : State} {a : Option Command} {rest : List PortEvent} (hp : s.pending = .reset a :: rest) :
    step s = .next (s.resetArrives rest) := by
  simp [step, hp, serve]

/-- A change of the entropy port at the head of the port is served (R247). -/
theorem step_entropyPort {s : State} {b : Bool} {rest : List PortEvent} (hp : s.pending = .entropyPort b :: rest) :
    step s = .next (s.switchEntropy b rest) := by
  simp [step, hp, serve]

/-- CORE_STATUS with an empty DIN answers the STATUS view (R248). -/
theorem exec_coreStatus {s : State} (hd : s.din = []) :
    exec .coreStatus s = .next (s.respond .ok (b32 (statusView s.keyed s.ivld s.kgst))) := by
  simp [exec, execCoreStatus, hd]

/-! ## What a command writes -/

/-- The registers a command writes, from `s` to the state `u` before its response: nothing, or those of one unit. This is
the "written by" column of 10_state.md section 1, one way of writing per constructor. -/
inductive Written (s u : State) (i : Instr) : Prop
  | nothing (hu : u = s)
  | schedule (hi : i = .bcSetkey) (v : Schedule) (hu : u = ((s.setRk v).setKeyed true).setIvld false)
  | chain (hi : i ∈ [Instr.cbcEnc, .cbcDec, .cfbEnc, .ofbEnc]) (v : Block) (hu : u = s.setChain v)
  | iv (hi : i ∈ [Instr.maSetiv false, .cfbDec, .ofbDec]) (v : Block) (hu : u = (s.setChain v).setIvld true)
  | drawnIv (hi : i = .maSetiv true) (v : Block) (hu : u = (s.countDraw.setChain v).setIvld true)
  | generatorStart (klen : Nat) (hi : i = .kgInit klen) (k iv : Block)
      (hu : u = (s.setGen (genInit k iv).warmUp).setKgst .running)
  | generatorStep (hi : i = .kgGen) (hu : u = s.setGen s.gen.advance)

/-- Marking a defined CHAIN as defined changes nothing: OFB_ENC is no writer of IVLD (R23). -/
theorem State.setIvld_of_ivld {s : State} (h : s.ivld = true) : s.setIvld true = s := by
  cases s; cases h; rfl

/-- A command that completes writes in one of the listed ways. -/
theorem Completes.written {s u : State} {d : Bytes} {i : Instr} (h : Completes s u d i) : Written s u i := by
  cases i
  case bcSetkey => obtain ⟨-, hu, -⟩ := h; exact .schedule rfl _ hu
  case bcEnc => obtain ⟨-, -, hu, -⟩ := h; exact .nothing hu
  case bcDec => obtain ⟨-, -, hu, -⟩ := h; exact .nothing hu
  case maSetiv rnd =>
    cases rnd
    · obtain ⟨-, hu, -⟩ := h; exact .iv (by simp) _ hu
    · obtain ⟨-, -, hu, -⟩ := h; exact .drawnIv rfl _ hu
  case ecbEnc => obtain ⟨-, hu, -⟩ := h; exact .nothing hu
  case ecbDec => obtain ⟨-, -, hu, -⟩ := h; exact .nothing hu
  case cbcEnc => obtain ⟨-, -, hu, -⟩ := h; exact .chain (by simp) _ hu
  case cbcDec => obtain ⟨-, -, -, hu, -⟩ := h; exact .chain (by simp) _ hu
  case cfbEnc => obtain ⟨-, -, hu, -⟩ := h; exact .chain (by simp) _ hu
  case cfbDec => obtain ⟨-, -, -, hu, -⟩ := h; exact .iv (by simp) _ hu
  case ofbEnc =>
    obtain ⟨-, hv, hu, -⟩ := h
    exact .chain (by simp) _ (hu.trans (State.setIvld_of_ivld (s := s.setChain _) hv))
  case ofbDec => obtain ⟨-, -, hu, -⟩ := h; exact .iv (by simp) _ hu
  case kgInit => obtain ⟨-, -, hu, -⟩ := h; exact .generatorStart _ rfl _ _ hu
  case kgGen => obtain ⟨-, -, hu, -⟩ := h; exact .generatorStep rfl hu
  case coreStatus => obtain ⟨-, hu, -⟩ := h; exact .nothing hu

/-- A command that answers a next state writes in one of the listed ways and then gives its response, whose DOUT is empty
unless the status is OK. -/
theorem exec_written {i : Instr} {s t : State} (h : exec i s = .next t) :
    ∃ u c d, Written s u i ∧ t = u.respond c d ∧ (c ≠ .ok → d = []) := by
  obtain ⟨c, -, ht⟩ | ⟨u, d, hc, ht⟩ := exec_next h
  · exact ⟨s, c, [], .nothing rfl, ht, fun _ => rfl⟩
  · exact ⟨u, .ok, d, hc.written, ht, fun hne => absurd rfl hne⟩

/-- Settles O53: each way of writing changes the registers of its own commands only. -/
theorem registersHaveTheirWriters : Obligations.RegistersHaveTheirWriters := by
  refine ⟨fun s b rest hp => step_entropyPort hp, fun i s t h => ?_⟩
  obtain ⟨u, c, d, hw, rfl, -⟩ := exec_written h
  cases hw with
  | nothing hu => subst hu; simp
  | schedule hi v hu => subst hu hi; simp
  | chain hi v hu => subst hu; fin_cases hi <;> simp
  | iv hi v hu => subst hu; fin_cases hi <;> simp
  | drawnIv hi v hu => subst hu hi; simp
  | generatorStart klen hi k iv hu => subst hu hi; simp
  | generatorStep hi hu => subst hu hi; simp

/-! ## Readiness (R21, R26) -/

/-- No command clears KEYED or stops a running generator (R21, R26). -/
theorem Written.keeps_ready {s u : State} {i : Instr} (h : Written s u i) :
    (s.keyed = true → u.keyed = true) ∧ (s.kgst = .running → u.kgst = .running) := by
  cases h with
  | nothing hu => simp [hu]
  | schedule hi v hu => simp [hu]
  | chain hi v hu => simp [hu]
  | iv hi v hu => simp [hu]
  | drawnIv hi v hu => simp [hu]
  | generatorStart klen hi k iv hu => simp [hu]
  | generatorStep hi hu => simp [hu]

/-- Settles O54: a step that serves no reset idles, switches the entropy port or serves a command. -/
theorem readinessLastsUntilReset : Obligations.ReadinessLastsUntilReset := by
  intro s t h hr
  cases step_next h with
  | idle hp ht => simp [ht]
  | reset a rest hp ht => exact absurd hp (hr a rest)
  | entropyPort b rest hp ht => simp [ht]
  | command c rest hp hl ht =>
    obtain ⟨-, rfl⟩ | ⟨i, -, hi⟩ := ht
    · simp
    · obtain ⟨u, st, d, hw, rfl, -⟩ := exec_written hi
      exact hw.keeps_ready

/-! ## The invariant -/

/-- The middle one of three fields put together. -/
theorem extractLsb'_append_middle {l m n : Nat} (a : BitVec l) (b : BitVec m) (c : BitVec n) :
    (a ++ b ++ c).extractLsb' n m = b := by
  rw [BitVec.extractLsb'_append_eq_of_le (Nat.le_refl n), Nat.sub_self, BitVec.extractLsb'_append_eq_right]

/-- A loaded cell is never 0, whatever the key and the IV: bits 22:8 are a load constant, and none of those is 0 (R200,
R201). -/
theorem loadCells_live (k iv : Block) : Cells.live (loadCells k iv) := by
  intro i h
  have hcell : (loadCells k iv)[i] = k[i] ++ loadConst[i] ++ iv[i] := by simp [loadCells]
  have hzero : loadConst[i] = 0 := by
    rw [← extractLsb'_append_middle k[i] loadConst[i] iv[i], ← hcell, h]
    rfl
  exact (show ∀ i : Fin 16, loadConst[i] ≠ 0 by decide) i hzero

/-- Initialisation rounds keep every cell non-zero, as the one step does (R206, R208). -/
theorem initRounds_live (n : Nat) {g : Gen} (h : Cells.live g.cells) : Cells.live (Gen.initRounds n g).cells := by
  induction n generalizing g with
  | zero => exact h
  | succ n ih => exact ih (stepInit_live h _)

/-- The cells of a generator that has just been initialised are not 0 (R208, R211). -/
theorem genInit_live (k iv : Block) : Cells.live (genInit k iv).cells := by
  rw [genInit]
  exact initRounds_live 32 (loadCells_live k iv)

/-- The invariant reads S, KGST and the responses only. -/
theorem State.Inv.of_eq {s t : State} (h : s.Inv) (hc : t.cells = s.cells) (hk : t.kgst = s.kgst)
    (hr : t.responses = s.responses) : t.Inv :=
  ⟨hc ▸ h.cells_nonzero, hk ▸ h.kgst_settled, hr ▸ h.failed_empty⟩

/-- A response keeps the invariant when a failure's DOUT is empty (R77). -/
theorem State.Inv.respond {s : State} (h : s.Inv) {c : StatusCode} {d : Bytes} (hd : c ≠ .ok → d = []) :
    (s.respond c d).Inv := by
  refine ⟨h.cells_nonzero, h.kgst_settled, fun r hr => ?_⟩
  obtain hr | hr := List.mem_append.mp hr
  · exact h.failed_empty r hr
  · obtain rfl := List.mem_singleton.mp hr
    exact hd

/-- What a command writes keeps the invariant: the generator's cells come out of a load or a step, which give no 0. -/
theorem Written.inv {s u : State} {i : Instr} (hw : Written s u i) (h : s.Inv) : u.Inv := by
  cases hw with
  | nothing hu => exact hu ▸ h
  | schedule hi v hu => subst hu; exact h.of_eq rfl rfl rfl
  | chain hi v hu => subst hu; exact h.of_eq rfl rfl rfl
  | iv hi v hu => subst hu; exact h.of_eq rfl rfl rfl
  | drawnIv hi v hu => subst hu; exact h.of_eq rfl rfl rfl
  | generatorStart klen hi k iv hu =>
    subst hu
    exact ⟨stepInit_live (genInit_live k iv) 0, nofun, h.failed_empty⟩
  | generatorStep hi hu =>
    subst hu
    exact ⟨stepInit_live h.cells_nonzero 0, h.kgst_settled, h.failed_empty⟩

/-- The reset value chosen for a cell is not 0 (assumption 3). -/
theorem reset_cells_live : Cells.live State.reset.cells := by
  have hcell : resetCell ≠ 0 := by decide
  simpa [Cells.live, State.reset] using hcell

/-- A reset that arrives keeps the invariant: S holds its reset values, and the responses stay (assumption 3). -/
theorem State.Inv.resetArrives {s : State} (h : s.Inv) (rest : List PortEvent) : (s.resetArrives rest).Inv where
  cells_nonzero := reset_cells_live
  kgst_settled := nofun
  failed_empty := h.failed_empty

/-- Settles O55: a case per way a step can go. -/
theorem stepKeepsInvariant : Obligations.StepKeepsInvariant := by
  intro s t hs h
  cases step_next h with
  | idle hp ht => exact ht ▸ hs
  | reset a rest hp ht => exact ht ▸ hs.resetArrives rest
  | entropyPort b rest hp ht => subst ht; exact hs.of_eq rfl rfl rfl
  | command c rest hp hl ht =>
    have ha : (s.accept c rest).Inv := hs.of_eq rfl rfl rfl
    obtain ⟨-, rfl⟩ | ⟨i, -, hi⟩ := ht
    · exact ha.respond fun _ => rfl
    · obtain ⟨u, st, d, hw, rfl, hd⟩ := exec_written hi
      exact (hw.inv ha).respond hd

/-- Settles O56: every cell holds the chosen reset value, and nothing has been answered. -/
theorem resetMeetsInvariant : Obligations.ResetMeetsInvariant where
  cells_nonzero := reset_cells_live
  kgst_settled := nofun
  failed_empty := nofun

/-! ## What the flags hide -/

section
variable {s t : State} (h : s.Alike t)
include h

/-! Writes that keep two states alike: a gated register is written together with the flag that opens it, or changes alike
in both. -/

theorem State.Alike.accept (c : Command) (rest : List PortEvent) : (s.accept c rest).Alike (t.accept c rest) :=
  { h with din := rfl, pending := rfl }

theorem State.Alike.switchEntropy (b : Bool) (rest : List PortEvent) :
    (s.switchEntropy b rest).Alike (t.switchEntropy b rest) :=
  { h with pending := rfl, entropyAnswers := rfl }

/-- Reset gives every register the same value whatever it held (R270). -/
theorem State.Alike.resetArrives (rest : List PortEvent) : (s.resetArrives rest).Alike (t.resetArrives rest) where
  keyed := rfl
  ivld := rfl
  kgst := rfl
  din := rfl
  pending := rfl
  responses := h.responses
  draws := h.draws
  entropyAnswers := h.entropyAnswers
  rk := nofun
  chain := nofun
  gen := nofun

theorem State.Alike.respond (c : StatusCode) (d : Bytes) : (s.respond c d).Alike (t.respond c d) :=
  { h with responses := congrArg (· ++ [(⟨c, d⟩ : Response)]) h.responses }

theorem State.Alike.countDraw : s.countDraw.Alike t.countDraw :=
  { h with draws := congrArg (· + 1) h.draws }

theorem State.Alike.setChain (v : Block) : (s.setChain v).Alike (t.setChain v) :=
  { h with chain := fun _ => rfl }

theorem State.Alike.setIv (v : Block) : ((s.setChain v).setIvld true).Alike ((t.setChain v).setIvld true) :=
  { h with ivld := rfl, chain := fun _ => rfl }

theorem State.Alike.setSchedule (v : Schedule) :
    (((s.setRk v).setKeyed true).setIvld false).Alike (((t.setRk v).setKeyed true).setIvld false) :=
  { h with keyed := rfl, ivld := rfl, rk := fun _ => rfl, chain := nofun }

theorem State.Alike.setGen (g : Gen) : (s.setGen g).Alike (t.setGen g) :=
  { h with gen := fun _ => rfl }

theorem State.Alike.startGen (g : Gen) : ((s.setGen g).setKgst .running).Alike ((t.setGen g).setKgst .running) :=
  { h with kgst := rfl, gen := fun _ => rfl }

/-! The two ways a command ends, and the checks before them. -/

theorem State.Alike.emit (d : Bytes) : Result.Alike (s.emit d) (t.emit d) := h.respond .ok d

theorem State.Alike.raise (c : StatusCode) : Result.Alike (s.raise c) (t.raise c) := h.respond c []

/-- A check that comes out the same in both states. -/
theorem State.Alike.check {p : Prop} [Decidable p] (c : StatusCode) {x y : Result} (hxy : ¬p → Result.Alike x y) :
    Result.Alike (if p then s.raise c else x) (if p then t.raise c else y) := by
  split
  · exact h.raise c
  · exact hxy ‹_›

/-- The KEYED check: only past it does a command read RK (R20). -/
theorem State.Alike.checkKeyed {x y : Result} (hxy : s.rk = t.rk → Result.Alike x y) :
    Result.Alike (if s.keyed = false then s.raise .notReady else x)
      (if t.keyed = false then t.raise .notReady else y) := by
  rw [← h.keyed]
  exact h.check _ fun hk => hxy (h.rk (Bool.not_eq_false _ ▸ hk))

/-- The IVLD check: only past it does a command read CHAIN (R22). -/
theorem State.Alike.checkIvld {x y : Result} (hxy : s.chain = t.chain → Result.Alike x y) :
    Result.Alike (if s.ivld = false then s.raise .notReady else x)
      (if t.ivld = false then t.raise .notReady else y) := by
  rw [← h.ivld]
  exact h.check _ fun hv => hxy (h.chain (Bool.not_eq_false _ ▸ hv))

/-! The commands. -/

theorem State.Alike.bcSetkey : Result.Alike (execBcSetkey s) (execBcSetkey t) := by
  rw [execBcSetkey, execBcSetkey, h.din]
  exact h.check _ fun _ => (h.setSchedule _).emit _

theorem State.Alike.bcEnc : Result.Alike (execBcEnc s) (execBcEnc t) := by
  rw [execBcEnc, execBcEnc, h.din]
  exact h.checkKeyed fun hk => h.check _ fun _ => hk ▸ h.emit _

theorem State.Alike.bcDec : Result.Alike (execBcDec s) (execBcDec t) := by
  rw [execBcDec, execBcDec, h.din]
  exact h.checkKeyed fun hk => h.check _ fun _ => hk ▸ h.emit _

/-- A draw hands on the same bytes in both states, or stops both (R247). -/
theorem State.Alike.drawEntropy {use : Block → State → Result}
    (huse : ∀ v, Result.Alike (use v s.countDraw) (use v t.countDraw)) :
    Result.Alike (s.drawEntropy use) (t.drawEntropy use) := by
  rw [State.drawEntropy, State.drawEntropy, h.entropyAnswers, h.draws]
  split
  · exact huse _
  · rfl

theorem State.Alike.maSetiv (rnd : Bool) : Result.Alike (execMaSetiv rnd s) (execMaSetiv rnd t) := by
  simp only [execMaSetiv, h.din]
  cases rnd with
  | false => exact h.check _ fun _ => (h.setIv _).emit _
  | true => exact h.check _ fun _ => h.drawEntropy fun v => (h.countDraw.setIv v).emit _

theorem State.Alike.ecbEnc : Result.Alike (execEcbEnc s) (execEcbEnc t) := by
  rw [execEcbEnc, execEcbEnc, h.din]
  exact h.checkKeyed fun hk => hk ▸ h.emit _

theorem State.Alike.ecbDec : Result.Alike (execEcbDec s) (execEcbDec t) := by
  rw [execEcbDec, execEcbDec, h.din]
  refine h.checkKeyed fun hk => h.check _ fun _ => ?_
  rw [hk]
  split
  · exact h.raise _
  · exact h.emit _

theorem State.Alike.cbcEnc : Result.Alike (execCbcEnc s) (execCbcEnc t) := by
  rw [execCbcEnc, execCbcEnc, h.din]
  refine h.checkKeyed fun hk => h.checkIvld fun hv => ?_
  rw [hk, hv]
  exact (h.setChain _).emit _

theorem State.Alike.cbcDec : Result.Alike (execCbcDec s) (execCbcDec t) := by
  rw [execCbcDec, execCbcDec, h.din]
  refine h.checkKeyed fun hk => h.checkIvld fun hv => h.check _ fun _ => ?_
  rw [hk, hv]
  dsimp only
  split
  · exact h.raise _
  · exact (h.setChain _).emit _

theorem State.Alike.cfbEnc : Result.Alike (execCfbEnc s) (execCfbEnc t) := by
  rw [execCfbEnc, execCfbEnc, h.din]
  refine h.checkKeyed fun hk => h.checkIvld fun hv => ?_
  rw [hk, hv]
  exact (h.setChain _).emit _

theorem State.Alike.cfbDec : Result.Alike (execCfbDec s) (execCfbDec t) := by
  rw [execCfbDec, execCfbDec, h.din]
  refine h.checkKeyed fun hk => h.check _ fun _ => h.check _ fun _ => ?_
  rw [hk]
  dsimp only
  split
  · exact h.raise _
  · exact (h.setIv _).emit _

theorem State.Alike.ofbEnc : Result.Alike (execOfbEnc s) (execOfbEnc t) := by
  rw [execOfbEnc, execOfbEnc, h.din]
  refine h.checkKeyed fun hk => h.checkIvld fun hv => ?_
  rw [hk, hv]
  exact (h.setIv _).emit _

theorem State.Alike.ofbDec : Result.Alike (execOfbDec s) (execOfbDec t) := by
  rw [execOfbDec, execOfbDec, h.din]
  refine h.checkKeyed fun hk => h.check _ fun _ => ?_
  rw [hk]
  exact (h.setIv _).emit _

theorem State.Alike.kgInit (klen : Nat) : Result.Alike (execKgInit klen s) (execKgInit klen t) := by
  rw [execKgInit, execKgInit, h.din]
  exact h.check _ fun _ => h.check _ fun _ => (h.startGen _).emit _

theorem State.Alike.kgGen : Result.Alike (execKgGen s) (execKgGen t) := by
  rw [execKgGen, execKgGen, h.din, ← h.kgst]
  refine h.check _ fun _ => h.check _ fun hr => ?_
  rw [h.gen (not_not.mp hr)]
  exact (h.setGen _).emit _

theorem State.Alike.coreStatus : Result.Alike (execCoreStatus s) (execCoreStatus t) := by
  rw [execCoreStatus, execCoreStatus, h.din, h.keyed, h.ivld, h.kgst]
  exact h.check _ fun _ => h.emit _

/-- No command tells two alike states apart. -/
theorem State.Alike.exec (i : Instr) : Result.Alike (exec i s) (exec i t) := by
  cases i
  case bcSetkey => exact h.bcSetkey
  case bcEnc => exact h.bcEnc
  case bcDec => exact h.bcDec
  case maSetiv rnd => exact h.maSetiv rnd
  case ecbEnc => exact h.ecbEnc
  case ecbDec => exact h.ecbDec
  case cbcEnc => exact h.cbcEnc
  case cbcDec => exact h.cbcDec
  case cfbEnc => exact h.cfbEnc
  case cfbDec => exact h.cfbDec
  case ofbEnc => exact h.ofbEnc
  case ofbDec => exact h.ofbDec
  case kgInit klen => exact h.kgInit klen
  case kgGen => exact h.kgGen
  case coreStatus => exact h.coreStatus

theorem State.Alike.runWord (cmd : Word) : Result.Alike (runWord s cmd) (runWord t cmd) := by
  rw [Machine.runWord, Machine.runWord]
  cases decode cmd with
  | none => exact h.raise _
  | some i => exact h.exec i

theorem State.Alike.serve (e : PortEvent) (rest : List PortEvent) : Result.Alike (serve s e rest) (serve t e rest) := by
  cases e with
  | command c =>
    rw [Machine.serve, Machine.serve]
    split
    · exact (h.accept c rest).runWord c.cmd
    · rfl
  | reset a => exact h.resetArrives rest
  | entropyPort b => exact h.switchEntropy b rest

end

/-- Settles O57: alike states have the same event to serve, and serving it keeps them alike. -/
theorem gatedRegistersAreUnobservable : Obligations.GatedRegistersAreUnobservable := by
  intro s t h
  rw [step, step, ← h.pending]
  cases s.pending with
  | nil => exact h
  | cons e rest => exact h.serve e rest

/-! ## Reset -/

/-- Settles O10: the step is `State.resetArrives`, whose fields are known. -/
theorem resetClearsFlagsAndAbandons : Obligations.ResetClearsFlagsAndAbandons :=
  fun s _ rest hp => ⟨s.resetArrives rest, step_reset hp, rfl, rfl, rfl, rfl, rfl, rfl, rfl⟩

/-- Settles O11: the STATUS view of clear flags is 0. -/
theorem resetStatusIsZero : Obligations.ResetStatusIsZero :=
  ⟨rfl, rfl, rfl, exec_coreStatus rfl⟩

end Sys2Proof.Machine
end

section
/-! PROOFS of the statements of 20_memory.md: what the command port does with a command (R59, R61, R70, R78) and how long
a response can be (R61). -/

namespace Sys2Proof.Machine

/-! ## Serving a command -/

section
variable {s : State} {c : Command} {rest : List PortEvent} (hp : s.pending = .command c :: rest)
include hp

/-- A command at the head of the port whose DIN is within the limit is accepted and its word served (R59). -/
theorem step_command (hl : c.din.length ≤ Config.maxDinBytes) : step s = runWord (s.accept c rest) c.cmd := by
  simp [step, hp, serve, hl]

/-- The port refuses a DIN longer than the limit (R61). -/
theorem step_dinTooLong (hl : Config.maxDinBytes < c.din.length) : step s = .refused .dinTooLong := by
  simp [step, hp, serve, Nat.not_le.mpr hl]

end

/-- A word the decoder refuses is answered with IllegalCommand (R75). -/
theorem runWord_of_decode_none {a : State} {cmd : Word} (hd : decode cmd = none) :
    runWord a cmd = .next (a.respond .illegalCommand []) := by
  simp [runWord, hd, State.raise_eq]

/-- A word that decodes runs its command (R70, R78). -/
theorem runWord_of_decode_some {a : State} {cmd : Word} {i : Instr} (hd : decode cmd = some i) :
    runWord a cmd = exec i a := by
  simp [runWord, hd]

/-- Settles O6: the port accepts the command, and its word decodes. -/
theorem stepRunsDecodedCommand : Obligations.StepRunsDecodedCommand := by
  intro s c rest i hp hl hd
  rw [step_command hp hl, runWord_of_decode_some hd]
  rfl

/-! ## Every accepted command is answered or stuck -/

/-- A command that answers a next state has added one response and left the events still pending alone (R70). -/
theorem exec_responds {i : Instr} {s t : State} (h : exec i s = .next t) :
    ∃ r, t.responses = s.responses ++ [r] ∧ t.pending = s.pending := by
  obtain ⟨c, -, rfl⟩ | ⟨u, d, hc, rfl⟩ := exec_next h
  · exact ⟨⟨c, []⟩, rfl, rfl⟩
  · obtain ⟨hr, hp, -, -⟩ := hc.ports
    exact ⟨⟨.ok, d⟩, by simp [hr], by simp [hp]⟩

/-- A command is answered with one response, or it is a draw from an entropy port that does not answer (R70, R247). -/
theorem exec_answers_or_stuck (i : Instr) (s : State) :
    (∃ t r, exec i s = .next t ∧ t.responses = s.responses ++ [r] ∧ t.pending = s.pending) ∨
      (i = .maSetiv true ∧ s.din = [] ∧ s.entropyAnswers = false ∧ exec i s = .fault .entropyPortSilent) := by
  cases h : exec i s with
  | next t =>
    obtain ⟨r, hr, hp⟩ := exec_responds h
    exact .inl ⟨t, r, rfl, hr, hp⟩
  | fault f =>
    obtain ⟨hi, hd, ha⟩ := exec_fault h
    cases f
    exact .inr ⟨hi, hd, ha, rfl⟩
  | refused r => exact absurd h (exec_not_refused i s r)

/-- Settles O9: an illegal word is answered, and a decoded command is answered or stuck. -/
theorem everyCommandIsAnsweredOrStuck : Obligations.EveryCommandIsAnsweredOrStuck := by
  intro s c rest hp hl
  rw [step_command hp hl]
  cases hd : decode c.cmd with
  | none => exact .inl ⟨_, ⟨.illegalCommand, []⟩, runWord_of_decode_none hd, rfl, rfl⟩
  | some i =>
    rw [runWord_of_decode_some hd]
    obtain h | ⟨rfl, h⟩ := exec_answers_or_stuck i (s.accept c rest)
    · exact .inl h
    · exact .inr ⟨rfl, h⟩

/-! ## How long a response is (R61) -/

/-- Unpad gives no more bytes than it takes (R161). -/
theorem unpad_length_le {q r : Bytes} (h : unpad q = some r) : r.length ≤ q.length := by
  unfold unpad at h
  split at h
  · cases h
  · split at h
    · cases h
    · obtain rfl := Option.some.inj h
      exact List.length_take_le' ..

/-- The blocks of a padded string have at most 16 bytes more than the string (R160). -/
theorem wholeBlocks_pad_length_le (p : Bytes) : 16 * (wholeBlocks (pad p)).length ≤ p.length + 16 := by
  rw [wholeBlocks_length, pad_length]
  omega

/-- What is left of as many blocks as a whole-block operand has, once the pad is stripped, is no longer than the operand
(R161). -/
theorem unpad_joinBlocks_length_le {bs : List Block} {b r : Bytes} (hm : b.length % 16 = 0)
    (hl : bs.length = (wholeBlocks b).length) (h : unpad (joinBlocks bs) = some r) : r.length ≤ b.length := by
  have hr := unpad_length_le h
  rw [joinBlocks_length, hl, wholeBlocks_length] at hr
  omega

/-- OFB over the first pieces of a string answers a byte for each of their bytes (R176). -/
theorem ofbCrypt_chunks_length (e : Block → Block) (v : Block) (n : Nat) (b : Bytes) :
    (ofbCrypt e v (chunks n b)).1.length = min (16 * n) b.length := by
  induction n generalizing v b with
  | zero => simp [chunks, ofbCrypt]
  | succ n ih =>
    simp [chunks, ofbCrypt, ih]
    omega

/-- OFB answers as many bytes as it is given (R176). -/
@[simp] theorem ofbCrypt_blocks_length (e : Block → Block) (v : Block) (b : Bytes) :
    (ofbCrypt e v (blocks b)).1.length = b.length := by
  rw [blocks, ofbCrypt_chunks_length]
  omega

/-- CFB_ENC adds the 16 bytes of CHAIN in front and at most 16 bytes of pad to DIN (R61, R174). -/
theorem Completes.dout_length_cfbEnc {s u : State} {d : Bytes} (h : Completes s u d .cfbEnc) :
    d.length ≤ s.din.length + 32 := by
  obtain ⟨-, -, -, rfl⟩ := h
  have hw := wholeBlocks_pad_length_le s.din
  simp
  omega

/-- Every other command that completes adds at most 16 bytes to DIN: a pad, CHAIN in front, or a whole answer of its own (R61). -/
theorem Completes.dout_length {s u : State} {d : Bytes} {i : Instr} (h : Completes s u d i) (hi : i ≠ .cfbEnc) :
    d.length ≤ s.din.length + 16 := by
  cases i
  case cfbEnc => exact absurd rfl hi
  case bcSetkey => obtain ⟨-, -, rfl⟩ := h; simp
  case bcEnc => obtain ⟨-, -, -, rfl⟩ := h; simp
  case bcDec => obtain ⟨-, -, -, rfl⟩ := h; simp
  case maSetiv rnd =>
    cases rnd
    · obtain ⟨-, -, rfl⟩ := h; simp
    · obtain ⟨-, -, -, rfl⟩ := h; simp
  case ecbEnc => obtain ⟨-, -, rfl⟩ := h; simpa using wholeBlocks_pad_length_le s.din
  case cbcEnc => obtain ⟨-, -, -, rfl⟩ := h; simpa using wholeBlocks_pad_length_le s.din
  case ecbDec =>
    obtain ⟨-, hm, -, hd⟩ := h
    exact Nat.le_add_right_of_le (unpad_joinBlocks_length_le hm (by simp) hd)
  case cbcDec =>
    obtain ⟨-, -, hm, -, hd⟩ := h
    exact Nat.le_add_right_of_le (unpad_joinBlocks_length_le hm (by simp) hd)
  case cfbDec =>
    obtain ⟨-, -, hm, -, hd⟩ := h
    have hl := unpad_joinBlocks_length_le (b := s.din.drop 16) (by simpa using hm) (by simp) hd
    rw [List.length_drop] at hl
    omega
  case ofbEnc => obtain ⟨-, -, -, rfl⟩ := h; simp; omega
  case ofbDec => obtain ⟨-, -, -, rfl⟩ := h; simp; omega
  case kgInit => obtain ⟨-, -, -, rfl⟩ := h; simp
  case kgGen => obtain ⟨-, -, -, rfl⟩ := h; simp [b32]
  case coreStatus => obtain ⟨-, -, rfl⟩ := h; simp [b32]

/-- The response of one command: at most 32 bytes longer than DIN, and at most 16 for every command but CFB_ENC (R61). -/
theorem exec_dout_length {i : Instr} {s t : State} {r : Response} (h : exec i s = .next t)
    (hr : t.responses = s.responses ++ [r]) :
    r.dout.length ≤ s.din.length + 32 ∧ (i ≠ .cfbEnc → r.dout.length ≤ s.din.length + 16) := by
  obtain ⟨c, -, rfl⟩ | ⟨u, d, hc, rfl⟩ := exec_next h
  · obtain rfl : (⟨c, []⟩ : Response) = r := by simpa using hr
    simp
  · obtain ⟨hu, -, -, -⟩ := hc.ports
    obtain rfl : (⟨.ok, d⟩ : Response) = r := by simpa [hu] using hr
    by_cases hi : i = .cfbEnc
    · subst hi
      exact ⟨hc.dout_length_cfbEnc, fun hne => absurd rfl hne⟩
    · have hd := hc.dout_length hi
      exact ⟨hd.trans (by omega), fun _ => hd⟩

/-- Settles O7: the port refuses a longer DIN, and an accepted command's response is bounded over its DIN. -/
theorem portLengthLimits : Obligations.PortLengthLimits := by
  refine ⟨Nat.le_add_left .., fun s c rest hp => step_dinTooLong hp, ?_, fun i s t r => exec_dout_length⟩
  intro s t c rest r hp h hr
  by_cases hl : c.din.length ≤ Config.maxDinBytes
  · rw [step_command hp hl] at h
    obtain ⟨-, rfl⟩ | ⟨i, -, hi⟩ := runWord_next h
    · obtain rfl : (⟨.illegalCommand, []⟩ : Response) = r := by simpa using hr
      simp
    · obtain ⟨hd, -⟩ := exec_dout_length hi hr
      simp only [State.accept_din] at hd
      omega
  · rw [step_dinTooLong hp (Nat.lt_of_not_le hl)] at h
    cases h

end Sys2Proof.Machine
end

section
/-! PROOFS of the statements of 30_encoding.md: the decoder, the encoder and the opcode map agree (R71 to R78), the illegal
words and their answer (R75), and the assembler's KG_INIT (R81, R212). -/

namespace Sys2Proof

/-! ## Decoding and encoding -/

/-- The decoder on the word put together of an ARG and an OP (R71, R78). -/
theorem decode_cmdWord (arg op : Byte) :
    decode (cmdWord arg op) =
      if op = 0x10 ∧ arg.extractLsb' 1 7 = 0 then some (.maSetiv (arg.getLsbD 0))
      else if op = 0x20 then some (.kgInit arg.toNat)
      else if arg = 0 then decodeOp op
      else none := by
  simp [decode]

/-- A word with a non-zero RSV is illegal (R75). -/
theorem decode_of_rsvField_ne {w : Word} (h : rsvField w ≠ 0) : decode w = none := if_pos h

/-- KG_INIT's word holds KLEN, any 8-bit count (R72). -/
theorem decode_kgInitWord (arg : Byte) : decode (cmdWord arg 0x20) = some (.kgInit arg.toNat) := by
  simp [decode_cmdWord]

/-- Settles O1: every command but KG_INIT has one word or two, and KG_INIT's KLEN fits its 8 bits. -/
theorem decodeOfEncode : Obligations.DecodeOfEncode := by
  intro i hwf
  cases i
  case kgInit klen =>
    have hlt : klen < 256 := Nat.lt_succ_of_le (of_decide_eq_true hwf)
    rw [encode, decode_kgInitWord, BitVec.toNat_ofNat, Nat.mod_eq_of_lt hlt]
  case maSetiv rnd => cases rnd <;> decide
  all_goals decide

/-- A row whose ARG must be 0 gives a well-formed command, encoded by that OP alone (R74). -/
theorem encode_of_decodeOp : ∀ op : Byte, ∀ i ∈ decodeOp op, i.wf = true ∧ encode i = cmdWord 0 op := by decide

/-- An ARG whose bits 7:1 are 0 is the one that bit 0 encodes (R72). -/
theorem arg_of_rnd : ∀ arg : Byte, arg.extractLsb' 1 7 = 0 → (if arg.getLsbD 0 then 1 else 0) = arg := by decide

/-- A word that decodes is the word of its ARG and OP, by one of the decoder's three branches, and each branch keeps every
bit of ARG. -/
theorem encode_of_decode_cmdWord {arg op : Byte} {i : Instr} (h : decode (cmdWord arg op) = some i) :
    i.wf = true ∧ encode i = cmdWord arg op := by
  rw [decode_cmdWord] at h
  split at h
  case isTrue hiv =>
    obtain ⟨rfl, hbits⟩ := hiv
    obtain rfl := Option.some.inj h
    exact ⟨rfl, by rw [encode, arg_of_rnd arg hbits]⟩
  split at h
  case isTrue hkg =>
    subst hkg
    obtain rfl := Option.some.inj h
    exact ⟨decide_eq_true (Nat.le_of_lt_succ arg.isLt), by rw [encode, BitVec.ofNat_toNat, BitVec.setWidth_eq]⟩
  split at h
  case isTrue harg => exact harg ▸ encode_of_decodeOp op i h
  case isFalse => cases h

/-- Settles O2: a word that decodes has RSV = 0, so it is the word of its ARG and OP. -/
theorem encodeOfDecode : Obligations.EncodeOfDecode := by
  intro w i h
  by_cases hrsv : rsvField w = 0
  · rw [word_of_arg_op hrsv] at h ⊢
    exact encode_of_decode_cmdWord h
  · rw [decode_of_rsvField_ne hrsv] at h
    cases h

/-! ## The opcode map -/

/-- The word of every well-formed command matches a row with its mnemonic (R74). -/
theorem encode_hits_row (i : Instr) : Laws.RowMatch.Statement i := by
  cases i
  case bcSetkey => exact Laws.RowMatch.bcSetkey
  case bcEnc => exact Laws.RowMatch.bcEnc
  case bcDec => exact Laws.RowMatch.bcDec
  case maSetiv rnd => exact Laws.RowMatch.maSetiv rnd
  case ecbEnc => exact Laws.RowMatch.ecbEnc
  case ecbDec => exact Laws.RowMatch.ecbDec
  case cbcEnc => exact Laws.RowMatch.cbcEnc
  case cbcDec => exact Laws.RowMatch.cbcDec
  case cfbEnc => exact Laws.RowMatch.cfbEnc
  case cfbDec => exact Laws.RowMatch.cfbDec
  case ofbEnc => exact Laws.RowMatch.ofbEnc
  case ofbDec => exact Laws.RowMatch.ofbDec
  case kgInit klen => exact Laws.RowMatch.kgInit klen
  case kgGen => exact Laws.RowMatch.kgGen
  case coreStatus => exact Laws.RowMatch.coreStatus

/-- No two rows of the opcode map have the same mnemonic. -/
theorem row_eq_of_mnemonic : ∀ r ∈ opcodeMap, ∀ r' ∈ opcodeMap, r.mnemonic = r'.mnemonic → r = r' := by decide

/-- Every row's mask pins RSV and OP, and its match has RSV = 0 and ARG = 0 (R74). -/
theorem row_pins_rsv_op : ∀ r ∈ opcodeMap, rsvField r.mask = BitVec.allOnes 16 ∧ opField r.mask = BitVec.allOnes 8 ∧
    rsvField r.value = 0 ∧ argField r.value = 0 := by decide

/-- A word that matches a row is the word of the row's OP and an ARG that the mask clears. -/
theorem OpRow.hits_fields {r : OpRow} (hr : r ∈ opcodeMap) {w : Word} (h : r.hits w = true) :
    w = cmdWord (argField w) (opField r.value) ∧ argField w &&& argField r.mask = 0 := by
  obtain ⟨hrsvMask, hopMask, hrsv, harg⟩ := row_pins_rsv_op r hr
  have hw : w &&& r.mask = r.value := eq_of_beq h
  have hwrsv : rsvField w = 0 := by rw [← hrsv, ← hw, rsvField_and, hrsvMask, BitVec.and_allOnes]
  have hwop : opField w = opField r.value := by rw [← hw, opField_and, hopMask, BitVec.and_allOnes]
  exact ⟨hwop ▸ word_of_arg_op hwrsv, by rw [← argField_and, hw, harg]⟩

/-- A row's OP with each ARG that the mask clears decodes to the row's command. -/
theorem row_decodes : ∀ r ∈ opcodeMap, ∀ arg : Byte, arg &&& argField r.mask = 0 →
    (decode (cmdWord arg (opField r.value))).map Instr.mnemonic = some r.mnemonic := by decide

/-- A row matches a word exactly when the word decodes to the row's command (R74, R78). -/
theorem OpRow.hits_iff {r : OpRow} (hr : r ∈ opcodeMap) (w : Word) :
    r.hits w = true ↔ (decode w).map Instr.mnemonic = some r.mnemonic := by
  constructor
  · intro h
    obtain ⟨hw, harg⟩ := OpRow.hits_fields hr h
    rw [hw]
    exact row_decodes r hr _ harg
  · intro h
    obtain ⟨i, hi, hm⟩ := Option.map_eq_some_iff.mp h
    obtain ⟨hwf, rfl⟩ := encodeOfDecode w i hi
    obtain ⟨r', hr', hm', hhit⟩ := encode_hits_row i hwf
    rwa [row_eq_of_mnemonic r hr r' hr' (hm.symm.trans hm'.symm)]

/-- Each command has one row in the opcode map. -/
theorem rows_of_mnemonic (i : Instr) :
    (opcodeMap.filter fun r => some i.mnemonic = some r.mnemonic).map (·.mnemonic) = [i.mnemonic] := by
  cases i <;> rfl

/-- Settles O3: the rows that match are those of the decoded command's mnemonic. -/
theorem decodeFollowsOpcodeMap : Obligations.DecodeFollowsOpcodeMap := by
  intro w
  have hrows : (opcodeMap.filter (·.hits w)).map (·.mnemonic) = ((decode w).map Instr.mnemonic).toList := by
    have hfilter : opcodeMap.filter (·.hits w) =
        opcodeMap.filter fun r => (decode w).map Instr.mnemonic = some r.mnemonic :=
      List.filter_congr fun r hr => Bool.eq_iff_iff.mpr ((OpRow.hits_iff hr w).trans decide_eq_true_iff.symm)
    rw [hfilter]
    cases decode w with
    | none => simp
    | some i => exact rows_of_mnemonic i
  refine ⟨hrows, ?_⟩
  rw [← List.length_map (f := (·.mnemonic)), hrows, Option.length_toList]
  split <;> decide

end Sys2Proof

namespace Sys2Proof.Machine

/-! ## Illegal words (R75) -/

/-- The OP values outside the rows whose ARG must be 0: the unassigned ones of R75, and 0x10 and 0x20. -/
theorem decodeOp_eq_none_iff : ∀ op : Byte, decodeOp op = none ↔
    op.toNat = 0x00 ∨ (0x04 ≤ op.toNat ∧ op.toNat ≤ 0x10) ∨ (0x19 ≤ op.toNat ∧ op.toNat ≤ 0x20) ∨
      (0x22 ≤ op.toNat ∧ op.toNat ≤ 0x2F) ∨ 0x31 ≤ op.toNat := by decide

/-- MA_SETIV's OP admits ARG 0 and 1 only (R72). -/
theorem decode_maSetivWord_eq_none_iff : ∀ arg : Byte, decode (cmdWord arg 0x10) = none ↔ 2 ≤ arg.toNat := by decide

/-- A word with RSV = 0 is refused exactly when R75 lists it: MA_SETIV's OP by its ARG, KG_INIT's never, any other OP by a
non-zero ARG or by the OP itself. -/
theorem decode_cmdWord_eq_none_iff (arg op : Byte) : decode (cmdWord arg op) = none ↔ IllegalWord (cmdWord arg op) := by
  simp only [IllegalWord, cmdWord_op, cmdWord_arg, cmdWord_rsv]
  by_cases hiv : op = 0x10
  · rw [hiv, decode_maSetivWord_eq_none_iff]
    simp
  by_cases hkg : op = 0x20
  · rw [hkg, decode_kgInitWord]
    simp
  rw [decode_cmdWord, if_neg fun h => hiv h.1, if_neg hkg]
  have hiv' : op.toNat ≠ 0x10 := fun h => hiv (BitVec.eq_of_toNat_eq h)
  have hkg' : op.toNat ≠ 0x20 := fun h => hkg (BitVec.eq_of_toNat_eq h)
  by_cases harg : arg = 0
  · rw [if_pos harg, decodeOp_eq_none_iff]
    simp only [harg, ne_eq, BitVec.ofNat_eq_ofNat, not_true_eq_false, and_false, false_or, or_false]
    omega
  · rw [if_neg harg]
    exact iff_of_true rfl (by tauto)

/-- The decoder refuses exactly the words R75 lists, a non-zero RSV first. -/
theorem decode_eq_none_iff (w : Word) : decode w = none ↔ IllegalWord w := by
  by_cases hrsv : rsvField w = 0
  · rw [word_of_arg_op hrsv]
    exact decode_cmdWord_eq_none_iff ..
  · exact iff_of_true (decode_of_rsvField_ne hrsv) (by simp only [IllegalWord]; tauto)

/-- Settles O4: an illegal word does not decode, so the port answers it without running a command. -/
theorem illegalWordsAnswerIllegalCommand : Obligations.IllegalWordsAnswerIllegalCommand := by
  refine ⟨decode_eq_none_iff, fun s c rest hp hl hw => ?_⟩
  rw [step_command hp hl, runWord_of_decode_none ((decode_eq_none_iff c.cmd).mpr hw)]
  rfl

/-! ## The assembler's KG_INIT (R81, R212) -/

/-- The assembler refuses a key that KLEN cannot count, and no other (R81). -/
theorem expand_kgInit_eq_none_iff (key iv : Bytes) : (AsmLine.kgInit key iv).expand = none ↔ 255 < key.length := by
  simp [AsmLine.expand]

/-- What the assembler makes of a KG_INIT line (R81). -/
theorem expand_kgInit_eq_some {key iv : Bytes} {c : Command} (h : (AsmLine.kgInit key iv).expand = some c) :
    key.length ≤ 255 ∧ c = ⟨encode (.kgInit key.length), key ++ iv⟩ := by
  simp only [AsmLine.expand] at h
  split at h
  · cases h
  · exact ⟨by omega, (Option.some.inj h).symm⟩

section
variable {s : State} {klen : Nat}

/-- KG_INIT judges the key's length first (R212). -/
theorem exec_kgInit_invalidKeyLength (h : klen ≠ 16) :
    exec (.kgInit klen) s = .next (s.respond .invalidKeyLength []) := by
  simp [exec, execKgInit, h, State.raise_eq]

/-- With a 16-byte key, KG_INIT judges the length of the rest of DIN (R212). -/
theorem exec_kgInit_invalidIvLength (hlo : 16 ≤ s.din.length) (hne : s.din.length ≠ 32) :
    exec (.kgInit 16) s = .next (s.respond .invalidIvLength []) := by
  have hiv : s.din.length - 16 ≠ 16 := by omega
  simp [exec, execKgInit, Nat.not_lt.mpr hlo, hiv, State.raise_eq]

/-- With a 16-byte key and a 16-byte IV, KG_INIT starts the generator (R212). -/
theorem exec_kgInit_running (h : s.din.length = 32) :
    ∃ t, exec (.kgInit 16) s = .next t ∧ t.kgst = .running ∧ t.responses = s.responses ++ [⟨.ok, []⟩] := by
  simp [exec, execKgInit, h, State.emit_eq]

end

/-- Settles O50: the command carries the key's length, and DIN's length is the key's and the IV's. -/
theorem kgInitJudgesKeyAndIvApart : Obligations.KgInitJudgesKeyAndIvApart := by
  refine fun s key iv => ⟨expand_kgInit_eq_none_iff key iv, fun c hc => ?_⟩
  obtain ⟨hklen, rfl⟩ := expand_kgInit_eq_some hc
  have hwf : (Instr.kgInit key.length).wf = true := decide_eq_true hklen
  refine ⟨rfl, decodeOfEncode _ hwf, exec_kgInit_invalidKeyLength, fun hk hv => ?_, fun hk hv => ?_⟩
  · rw [hk]
    exact exec_kgInit_invalidIvLength (by simp [hk]) (by simp [hk]; omega)
  · rw [hk]
    exact exec_kgInit_running (by simp [hk, hv])

/-! ## Words written out -/

/-- Settles O5: each word is evaluated. -/
theorem sampleWordsDecode : Obligations.SampleWordsDecode := by
  unfold Obligations.SampleWordsDecode
  decide

end Sys2Proof.Machine
end

section
/-! PROOFS of the statements of 40_primitives.md: the substitutions of bytes and words (R100, R101, R106 to R108), and the
round network that uses them (R104, R133 to R135). -/

namespace Sys2Proof.Machine

/-! ## Substitutions -/

/-- The set of the bytes in a list, as a number with one bit for each byte. -/
def marks : List Byte → Nat
  | [] => 0
  | x :: xs => 2 ^ x.toNat ||| marks xs

/-- Bit `y` of `marks` is set just when `y` occurs. -/
theorem testBit_marks (xs : List Byte) (y : Byte) : (marks xs).testBit y.toNat = true ↔ y ∈ xs := by
  induction xs with
  | nil => simp [marks]
  | cons x xs ih =>
    rw [marks, Nat.testBit_or, Bool.or_eq_true, ih, Nat.testBit_two_pow, decide_eq_true_iff, BitVec.toNat_inj,
      List.mem_cons, @eq_comm _ x y]

/-- A table on bytes whose 256 entries mark all 256 bits reaches every byte. -/
theorem surjective_of_marks {f : Byte → Byte}
    (h : marks ((List.range 256).map fun n => f (BitVec.ofNat 8 n)) = 2 ^ 256 - 1) : Function.Surjective f := by
  intro y
  have hbit : (2 ^ 256 - 1).testBit y.toNat = true := by
    rw [Nat.testBit_two_pow_sub_one, decide_eq_true_iff]
    exact y.isLt
  rw [← h, testBit_marks] at hbit
  obtain ⟨n, -, hn⟩ := List.mem_map.mp hbit
  exact ⟨BitVec.ofNat 8 n, hn⟩

/-- Every byte stands in `SBOX` (R100). -/
theorem sbox_surjective : Function.Surjective sbox := surjective_of_marks (by decide +kernel)

/-- Every byte stands in `S0` (R106). -/
theorem s0_surjective : Function.Surjective s0 := surjective_of_marks (by decide +kernel)

/-- Every byte stands in `S1` (R107). -/
theorem s1_surjective : Function.Surjective s1 := surjective_of_marks (by decide +kernel)

/-- On the bytes of a word, `mapLanes` is one table per byte. -/
@[simp] theorem mapLanes_w32 (f3 f2 f1 f0 : Byte → Byte) (a b c d : Byte) :
    mapLanes f3 f2 f1 f0 (w32 a b c d) = w32 (f3 a) (f2 b) (f1 c) (f0 d) := by
  have hbytes := b32_w32 a b c d
  simp only [b32, List.cons.injEq, and_true] at hbytes
  obtain ⟨ha, hb, hc, hd⟩ := hbytes
  rw [mapLanes, ha, hb, hc, hd, w32]

/-- A word whose bytes all have preimages has the word of these as its preimage. -/
theorem mapLanes_surjective {f3 f2 f1 f0 : Byte → Byte} (h3 : Function.Surjective f3) (h2 : Function.Surjective f2)
    (h1 : Function.Surjective f1) (h0 : Function.Surjective f0) : Function.Surjective (mapLanes f3 f2 f1 f0) := by
  intro y
  obtain ⟨a, ha⟩ := h3 (y.extractLsb' 24 8)
  obtain ⟨b, hb⟩ := h2 (y.extractLsb' 16 8)
  obtain ⟨c, hc⟩ := h1 (y.extractLsb' 8 8)
  obtain ⟨d, hd⟩ := h0 (y.extractLsb' 0 8)
  exact ⟨w32 a b c d, by rw [mapLanes_w32, ha, hb, hc, hd, w32_bytes]⟩

/-- Settles O18: each substitution reaches every value, so on a finite type it is a bijection. -/
theorem substitutionsAreBijections : Obligations.SubstitutionsAreBijections :=
  ⟨sbox_surjective.bijective_of_finite, s0_surjective.bijective_of_finite, s1_surjective.bijective_of_finite,
    (mapLanes_surjective sbox_surjective sbox_surjective sbox_surjective sbox_surjective).bijective_of_finite,
    (mapLanes_surjective s0_surjective s1_surjective s0_surjective s1_surjective).bijective_of_finite, fun _ => rfl⟩

/-! ## The round network -/

/-- The window `X[i..i+3]` of the network that starts at `x` (R133), for every `i`: past the last round key it goes on with
key 0, so that the sequence is total. -/
def networkWindow (rk : Schedule) (x : Quad) : Nat → Quad
  | 0 => x
  | i + 1 => cryptRound (networkWindow rk x i) (rk.toList.getD i 0)

/-- `X[i]` of the network on a block (R133): the first word of window `i`. -/
def networkWord (rk : Schedule) (b : Block) (i : Nat) : Word := (networkWindow rk (words4 b) i).a

/-- Window `i` holds `X[i..i+3]`, since a round moves three of its words up one place (R133). -/
theorem networkWindow_eq (rk : Schedule) (b : Block) (i : Nat) :
    networkWindow rk (words4 b) i =
      ⟨networkWord rk b i, networkWord rk b (i + 1), networkWord rk b (i + 2), networkWord rk b (i + 3)⟩ := rfl

/-- One round makes `X[i+4]` of the four words before it and the round key (R133). -/
theorem networkWord_add_four (rk : Schedule) (b : Block) {i : Nat} (hi : i < 32) :
    networkWord rk b (i + 4) = networkWord rk b i ^^^
      roundT (networkWord rk b (i + 1) ^^^ networkWord rk b (i + 2) ^^^ networkWord rk b (i + 3) ^^^ rk[i]) := by
  have hlen : i < rk.toList.length := by rwa [Vector.length_toList]
  rw [← Vector.getElem_toList hlen, ← List.getD_eq_getElem _ 0 hlen]
  rfl

/-- The window after `i` rounds is what the first `i` round keys make of the start. -/
theorem foldl_cryptRound_take (rk : Schedule) (x : Quad) {i : Nat} (hi : i ≤ rk.toList.length) :
    (rk.toList.take i).foldl cryptRound x = networkWindow rk x i := by
  induction i with
  | zero => rfl
  | succ i ih =>
    rw [← List.take_concat_get' _ i hi, List.foldl_concat, ih (Nat.le_of_succ_le hi), networkWindow,
      List.getD_eq_getElem _ _ hi]

/-- Encryption answers the last window in reverse order (R133, R134). -/
theorem encBlock_eq_networkWord (rk : Schedule) (b : Block) :
    encBlock rk b = bytes4 (networkWord rk b 35) (networkWord rk b 34) (networkWord rk b 33) (networkWord rk b 32) := by
  have hlast : rk.toList.foldl cryptRound (words4 b) = networkWindow rk (words4 b) 32 := by
    rw [← foldl_cryptRound_take rk _ (by rw [Vector.length_toList]), List.take_of_length_le (by rw [Vector.length_toList])]
  rw [encBlock, crypt, hlast, networkWindow_eq]

/-- Decryption is encryption under the reversed schedule (R135). -/
theorem decBlock_eq_encBlock_reverse (rk : Schedule) (b : Block) : decBlock rk b = encBlock rk.reverse b := by
  rw [decBlock, encBlock, Vector.toList_reverse]

/-- R133's worked example for `X[4]`, and the known answer V-BC-5. -/
theorem standardBlock_knownAnswer (key : Block)
    (hkey : key = #v[0x01, 0x23, 0x45, 0x67, 0x89, 0xAB, 0xCD, 0xEF, 0xFE, 0xDC, 0xBA, 0x98, 0x76, 0x54, 0x32, 0x10]) :
    (words4 key).a ^^^ roundT ((words4 key).b ^^^ (words4 key).c ^^^ (words4 key).d ^^^ (keyExpand key)[0]) = 0x27FAD345 ∧
    encBlock (keyExpand key) key =
      #v[0x68, 0x1E, 0xDF, 0x34, 0xD2, 0x06, 0x96, 0x5E, 0x86, 0xB3, 0xE9, 0x4F, 0x53, 0x6E, 0x42, 0x46] := by
  subst hkey
  decide +kernel

/-- Settles O21: both directions are one network, under the schedule and under its reverse. -/
theorem cipherRoundRecurrence : Obligations.CipherRoundRecurrence := by
  refine ⟨fun _ => rfl, fun _ => rfl, standardBlock_knownAnswer, fun rk b => ⟨?_, ?_⟩⟩
  · exact ⟨networkWord rk b, rfl, rfl, rfl, rfl, fun _ hi => networkWord_add_four rk b hi, encBlock_eq_networkWord rk b⟩
  · refine ⟨networkWord rk.reverse b, rfl, rfl, rfl, rfl, fun i hi => ?_, ?_⟩
    · rw [networkWord_add_four rk.reverse b hi, Vector.getElem_reverse]
    · rw [decBlock_eq_encBlock_reverse, encBlock_eq_networkWord]

end Sys2Proof.Machine
end

section
/-! PROOFS of the statements of 41_block_cipher.md: the key expansion's recurrence (R105, R130 to R132), decryption against
encryption (R136), the commands BC_SETKEY, BC_ENC and BC_DEC (R140 to R142), and what a new key does to CHAIN (R274). -/

namespace Sys2Proof.Machine

/-! ## Key expansion -/

/-- One round of the key expansion on the window `K[i..i+3]`: `K[i+4]` comes in and `K[i]` drops out (R132). -/
def keyRound (k : Quad) (c : Word) : Quad :=
  ⟨k.b, k.c, k.d, k.a ^^^ keyT (k.b ^^^ k.c ^^^ k.d ^^^ c)⟩

/-- The model's rounds are `keyRound` one after the other, each answering the word it brings in (R132). -/
theorem keyRounds_cons (k : Quad) (c : Word) (cs : List Word) :
    keyRounds k (c :: cs) = (keyRound k c).d :: keyRounds (keyRound k c) cs := rfl

/-- The window `K[i..i+3]` of the key expansion (R132), for every `i`: past `CK[31]` it goes on with R131's formula, so that
the sequence is total. -/
def keyWindow (key : Block) : Nat → Quad
  | 0 => keyStart key
  | i + 1 => keyRound (keyWindow key i) (ckWord i)

/-- `K[i]` of the key expansion (R132): the first word of window `i`. -/
def keyWord (key : Block) (i : Nat) : Word := (keyWindow key i).a

/-- `CK[i]` with its four bytes written out (R131). -/
theorem ckWord_eq (i : Nat) :
    ckWord i = BitVec.ofNat 8 (28 * i) ++ BitVec.ofNat 8 (28 * i + 7) ++ BitVec.ofNat 8 (28 * i + 14) ++
      BitVec.ofNat 8 (28 * i + 21) := by
  simp only [ckWord, ckByte, Nat.mul_add, ← Nat.mul_assoc, Nat.reduceMul]

/-- One round makes `K[i+4]` of the four words before it and the round constant, since a round moves three words of its
window up one place (R132). -/
theorem keyWord_add_four (key : Block) (i : Nat) :
    keyWord key (i + 4) = keyWord key i ^^^
      keyT (keyWord key (i + 1) ^^^ keyWord key (i + 2) ^^^ keyWord key (i + 3) ^^^ ckWord i) := rfl

/-- From window `i` on, `n` rounds answer `K[i+4]` to `K[i+n+3]` (R132). -/
theorem keyRounds_keyWindow (key : Block) (i n : Nat) :
    keyRounds (keyWindow key i) ((List.range' i n).map ckWord) =
      (List.range' i n).map fun j => keyWord key (j + 4) := by
  induction n generalizing i with
  | zero => rfl
  | succ n ih =>
    have hwindow : keyRound (keyWindow key i) (ckWord i) = keyWindow key (i + 1) := rfl
    have hword : (keyWindow key (i + 1)).d = keyWord key (i + 4) := rfl
    rw [List.range'_succ, List.map_cons, List.map_cons, keyRounds_cons, hwindow, hword, ih]

/-- The round keys are `K[4]` to `K[35]` (R132). -/
theorem keyExpand_toList (key : Block) :
    (keyExpand key).toList = (List.range 32).map fun i => keyWord key (i + 4) := by
  rw [keyExpand, List.range_eq_range', ← keyRounds_keyWindow key 0 32, ← List.range_eq_range']
  rfl

/-- `rk[i] = K[i+4]` (R132). -/
theorem keyExpand_getElem (key : Block) {i : Nat} (hi : i < 32) : (keyExpand key)[i] = keyWord key (i + 4) := by
  have hlen : i < (keyExpand key).toList.length := by rwa [Vector.length_toList]
  rw [← Vector.getElem_toList hlen]
  simp only [keyExpand_toList, List.getElem_map, List.getElem_range]

/-- The first and the last round key of R132's worked example. -/
theorem keyExpand_standardKey (key : Block)
    (hkey : key = #v[0x01, 0x23, 0x45, 0x67, 0x89, 0xAB, 0xCD, 0xEF, 0xFE, 0xDC, 0xBA, 0x98, 0x76, 0x54, 0x32, 0x10]) :
    (keyExpand key)[0] = 0xF12186F9 ∧ (keyExpand key)[31] = 0x9124A012 := by
  subst hkey
  decide +kernel

/-- Settles O20: the sequence is `keyWord`, and the worked example is evaluated. -/
theorem keyScheduleRecurrence : Obligations.KeyScheduleRecurrence := by
  refine ⟨fun _ => rfl, fun key => ⟨keyWord key, rfl, rfl, rfl, rfl, fun i _ => ?_, fun i hi => keyExpand_getElem key hi⟩,
    keyExpand_standardKey _ rfl⟩
  rw [keyWord_add_four, ckWord_eq]

/-! ## Decryption and encryption -/

/-- Four words in reverse slot order, as the last window of the network leaves it (R133). -/
def Quad.reverse (x : Quad) : Quad := ⟨x.d, x.c, x.b, x.a⟩

/-- The words of the network's answer are its last window reversed (R133). -/
theorem words4_crypt (rks : List Word) (m : Block) :
    words4 (crypt rks m) = (rks.foldl cryptRound (words4 m)).reverse := by
  rw [crypt, words4_bytes4, Quad.reverse]

/-- On reversed windows a round undoes itself: the word it brought in was masked by the three words that it left alone. -/
theorem cryptRound_reverse_cryptRound (x : Quad) (k : Word) :
    cryptRound (cryptRound x k).reverse k = x.reverse := by
  have hmask : x.d ^^^ x.c ^^^ x.b = x.b ^^^ x.c ^^^ x.d := by ac_rfl
  simp only [cryptRound, Quad.reverse, hmask, BitVec.xor_assoc _ _ (roundT _), BitVec.xor_self, BitVec.xor_zero]

/-- The rounds in reverse order, on the reversed window, lead back to the reversed start (R136). -/
theorem foldl_cryptRound_reverse (rks : List Word) (x : Quad) :
    rks.reverse.foldl cryptRound (rks.foldl cryptRound x).reverse = x.reverse := by
  induction rks generalizing x with
  | nil => rfl
  | cons k ks ih => rw [List.reverse_cons, List.foldl_concat, List.foldl_cons, ih, cryptRound_reverse_cryptRound]

/-- The network with its round keys reversed undoes the network, whatever the keys (R136). -/
theorem crypt_reverse_crypt (rks : List Word) (m : Block) : crypt rks.reverse (crypt rks m) = m := by
  rw [crypt, words4_crypt, foldl_cryptRound_reverse]
  exact bytes4_words4 m

/-- Decryption undoes encryption (R136). -/
theorem decBlock_encBlock (rk : Schedule) (m : Block) : decBlock rk (encBlock rk m) = m :=
  crypt_reverse_crypt rk.toList m

/-- Encryption undoes decryption, as the reverse of the reversed round keys is the round keys (R136). -/
theorem encBlock_decBlock (rk : Schedule) (m : Block) : encBlock rk (decBlock rk m) = m := by
  have h := crypt_reverse_crypt rk.toList.reverse m
  rwa [List.reverse_reverse] at h

/-- Settles O22: a round undoes itself on reversed windows. -/
theorem decryptionInvertsEncryption : Obligations.DecryptionInvertsEncryption :=
  fun rk m => ⟨decBlock_encBlock rk m, encBlock_decBlock rk m⟩

/-! ## The commands -/

section
variable {s : State}

/-- BC_SETKEY with a 16-byte key loads its schedule and marks CHAIN undefined (R140). -/
theorem exec_bcSetkey_ok (h : s.din.length = 16) :
    exec .bcSetkey s =
      .next ((((s.setRk (keyExpand (blockOf s.din))).setKeyed true).setIvld false).respond .ok []) := by
  simp [exec, execBcSetkey, h, State.emit_eq]

/-- BC_SETKEY with a key of another length fails (R140). -/
theorem exec_bcSetkey_invalidKeyLength (h : s.din.length ≠ 16) :
    exec .bcSetkey s = .next (s.respond .invalidKeyLength []) := by
  simp [exec, execBcSetkey, h, State.raise_eq]

/-- BC_ENC answers the encryption of one block (R141). -/
theorem exec_bcEnc_ok (hk : s.keyed = true) (h : s.din.length = 16) :
    exec .bcEnc s = .next (s.respond .ok (blockBytes (encBlock s.rk (blockOf s.din)))) := by
  simp [exec, execBcEnc, hk, h, State.emit_eq]

/-- BC_DEC answers the decryption of one block (R142). -/
theorem exec_bcDec_ok (hk : s.keyed = true) (h : s.din.length = 16) :
    exec .bcDec s = .next (s.respond .ok (blockBytes (decBlock s.rk (blockOf s.din)))) := by
  simp [exec, execBcDec, hk, h, State.emit_eq]

/-- BC_ENC and BC_DEC with a key judge DIN's length (R141, R142). -/
theorem exec_bc_invalidBlockLength (hk : s.keyed = true) (h : s.din.length ≠ 16) :
    exec .bcEnc s = .next (s.respond .invalidBlockLength []) ∧
      exec .bcDec s = .next (s.respond .invalidBlockLength []) := by
  simp [exec, execBcEnc, execBcDec, hk, h, State.raise_eq]

/-- BC_ENC and BC_DEC ask for a key first (R141, R142). -/
theorem exec_bc_notReady (hk : s.keyed = false) :
    exec .bcEnc s = .next (s.respond .notReady []) ∧ exec .bcDec s = .next (s.respond .notReady []) := by
  simp [exec, execBcEnc, execBcDec, hk, State.raise_eq]

/-- The KEYED check and the IVLD check give the same status, so one of them failing is enough. -/
theorem State.checkKeyedIvld_notReady (h : s.keyed = false ∨ s.ivld = false) (x : Result) :
    (if s.keyed = false then s.raise .notReady else if s.ivld = false then s.raise .notReady else x) =
      .next (s.respond .notReady []) := by
  rw [← ite_or, if_pos h, State.raise_eq]

/-- The four commands that start from CHAIN ask for a key and a defined CHAIN first (R172, R173, R174, R176). -/
theorem exec_fromChain_notReady {i : Instr} (hi : i ∈ [Instr.cbcEnc, .cbcDec, .cfbEnc, .ofbEnc])
    (h : s.keyed = false ∨ s.ivld = false) : exec i s = .next (s.respond .notReady []) := by
  fin_cases hi <;> exact State.checkKeyedIvld_notReady h _

end

/-- Settles O23: the register writes are those of `exec_bcSetkey_ok`. -/
theorem bcSetkeyLoadsSchedule : Obligations.BcSetkeyLoadsSchedule :=
  ⟨decodeOfEncode .bcSetkey rfl, fun _ => ⟨exec_bcSetkey_ok, exec_bcSetkey_invalidKeyLength⟩⟩

/-- Settles O24: a case for each check of the two commands. -/
theorem bcEncDecAnswerOneBlock : Obligations.BcEncDecAnswerOneBlock :=
  ⟨decodeOfEncode .bcEnc rfl, decodeOfEncode .bcDec rfl, fun _ =>
    ⟨fun hk h => ⟨exec_bcEnc_ok hk h, exec_bcDec_ok hk h⟩, exec_bc_invalidBlockLength, exec_bc_notReady⟩⟩

/-- Settles O42: BC_SETKEY leaves IVLD = 0, and a new DIN does not change that. -/
theorem rekeyDropsIv : Obligations.RekeyDropsIv := by
  intro s t d hlen ht i hi
  rw [exec_bcSetkey_ok hlen, Host.Outcome.next.injEq] at ht
  subst ht
  exact exec_fromChain_notReady hi (.inr rfl)

end Sys2Proof.Machine
end

section
/-! PROOFS of the statements of 42_modes.md: padding (R160, R161), MA_SETIV (R165), the four modes block by block (R170
to R177), their round trips (R178), and the keystream that OFB_ENC continues (R274). -/

namespace Sys2Proof.Machine

/-! ## What a command answers

The converse of `exec_next`: the checks of `Fails` and the effect of `Completes` determine the answer. -/

/-- A command whose first failing check gives `c` answers `c` and changes nothing. -/
theorem exec_of_fails {i : Instr} {s : State} {c : StatusCode} (h : Fails s c i) :
    exec i s = .next (s.respond c []) := by
  cases i
  case bcSetkey => obtain ⟨rfl, hl⟩ := h; exact if_pos hl
  case bcEnc =>
    obtain ⟨rfl, hk⟩ | ⟨rfl, hk, hl⟩ := h
    · exact (exec_bc_notReady hk).1
    · exact (exec_bc_invalidBlockLength hk hl).1
  case bcDec =>
    obtain ⟨rfl, hk⟩ | ⟨rfl, hk, hl⟩ := h
    · exact (exec_bc_notReady hk).2
    · exact (exec_bc_invalidBlockLength hk hl).2
  case maSetiv rnd =>
    cases rnd
    · obtain ⟨rfl, hl⟩ := h; exact if_pos hl
    · obtain ⟨rfl, hl⟩ := h; exact if_pos hl
  case ecbEnc => obtain ⟨rfl, hk⟩ := h; exact if_pos hk
  case ecbDec =>
    obtain ⟨rfl, hk⟩ | ⟨rfl, hk, hl⟩ | ⟨rfl, hk, hl, hu⟩ := h
    · simp [exec, execEcbDec, hk, State.raise_eq]
    · simp [exec, execEcbDec, hk, hl, State.raise_eq]
    · simp [exec, execEcbDec, hk, hl, hu, State.raise_eq]
  case cbcEnc => obtain ⟨rfl, hr⟩ := h; exact State.checkKeyedIvld_notReady hr _
  case cbcDec =>
    obtain ⟨rfl, hr⟩ | ⟨rfl, hk, hv, hl⟩ | ⟨rfl, hk, hv, hl, hu⟩ := h
    · exact State.checkKeyedIvld_notReady hr _
    · simp [exec, execCbcDec, hk, hv, hl, State.raise_eq]
    · simp [exec, execCbcDec, hk, hv, hl, hu, State.raise_eq]
  case cfbEnc => obtain ⟨rfl, hr⟩ := h; exact State.checkKeyedIvld_notReady hr _
  case cfbDec =>
    obtain ⟨rfl, hk⟩ | ⟨rfl, hk, hl⟩ | ⟨rfl, hk, hl, hm⟩ | ⟨rfl, hk, hl, hm, hu⟩ := h
    · simp [exec, execCfbDec, hk, State.raise_eq]
    · simp [exec, execCfbDec, hk, hl, State.raise_eq]
    · simp [exec, execCfbDec, hk, hl.not_gt, hm, State.raise_eq]
    · simp [exec, execCfbDec, hk, hl.not_gt, hm, hu, State.raise_eq]
  case ofbEnc => obtain ⟨rfl, hr⟩ := h; exact State.checkKeyedIvld_notReady hr _
  case ofbDec =>
    obtain ⟨rfl, hk⟩ | ⟨rfl, hk, hl⟩ := h
    · simp [exec, execOfbDec, hk, State.raise_eq]
    · simp [exec, execOfbDec, hk, hl, State.raise_eq]
  case kgInit =>
    obtain ⟨rfl, hl⟩ | ⟨rfl, rfl, hlo, hl⟩ := h
    · exact if_pos hl
    · exact exec_kgInit_invalidIvLength hlo hl
  case kgGen =>
    obtain ⟨rfl, hd⟩ | ⟨rfl, hd, hr⟩ := h
    · simp [exec, execKgGen, hd, State.raise_eq]
    · simp [exec, execKgGen, hd, hr, State.raise_eq]
  case coreStatus => obtain ⟨rfl, hd⟩ := h; simp [exec, execCoreStatus, hd, State.raise_eq]

/-- A command that completes with the effect `u` and DOUT `d` answers OK from `u`. -/
theorem exec_of_completes {i : Instr} {s u : State} {d : Bytes} (h : Completes s u d i) :
    exec i s = .next (u.respond .ok d) := by
  cases i
  case bcSetkey => obtain ⟨hl, rfl, rfl⟩ := h; exact exec_bcSetkey_ok hl
  case bcEnc => obtain ⟨hk, hl, rfl, rfl⟩ := h; exact exec_bcEnc_ok hk hl
  case bcDec => obtain ⟨hk, hl, rfl, rfl⟩ := h; exact exec_bcDec_ok hk hl
  case maSetiv rnd =>
    cases rnd
    · obtain ⟨hl, rfl, rfl⟩ := h; simp [exec, execMaSetiv, hl, State.emit_eq]
    · obtain ⟨hl, ha, rfl, rfl⟩ := h; simp [exec, execMaSetiv, hl, State.drawEntropy_answers _ ha, State.emit_eq]
  case ecbEnc => obtain ⟨hk, rfl, rfl⟩ := h; simp [exec, execEcbEnc, hk, State.emit_eq]
  case ecbDec => obtain ⟨hk, hl, rfl, hu⟩ := h; simp [exec, execEcbDec, hk, hl, hu, State.emit_eq]
  case cbcEnc => obtain ⟨hk, hv, rfl, rfl⟩ := h; simp [exec, execCbcEnc, hk, hv, State.emit_eq]
  case cbcDec => obtain ⟨hk, hv, hl, rfl, hu⟩ := h; simp [exec, execCbcDec, hk, hv, hl, hu, State.emit_eq]
  case cfbEnc => obtain ⟨hk, hv, rfl, rfl⟩ := h; simp [exec, execCfbEnc, hk, hv, State.emit_eq]
  case cfbDec =>
    obtain ⟨hk, hl, hm, rfl, hu⟩ := h
    simp [exec, execCfbDec, hk, hl.not_gt, hm, hu, State.emit_eq]
  case ofbEnc => obtain ⟨hk, hv, rfl, rfl⟩ := h; simp [exec, execOfbEnc, hk, hv, State.emit_eq]
  case ofbDec => obtain ⟨hk, hl, rfl, rfl⟩ := h; simp [exec, execOfbDec, hk, hl.not_gt, State.emit_eq]
  case kgInit => obtain ⟨rfl, hl, rfl, rfl⟩ := h; simp [exec, execKgInit, hl, State.emit_eq]
  case kgGen => obtain ⟨hd, hr, rfl, rfl⟩ := h; simp [exec, execKgGen, hd, hr, State.emit_eq]
  case coreStatus => obtain ⟨hd, rfl, rfl⟩ := h; simp [exec, execCoreStatus, hd, State.emit_eq]

/-! ## Padding (R160, R161) -/

/-- Settles O27: the pad is the model's own, and `pad_length` gives the length. -/
theorem padFillsToWholeBlocks : Obligations.PadFillsToWholeBlocks :=
  fun p => ⟨pad_length p, 16 - p.length % 16, by omega, by omega, rfl, rfl⟩

/-- Unpad refuses a final byte outside 1 to 16 (R161). -/
theorem unpad_eq_none {q : Bytes} {n : Byte} (h : n.toNat < 1 ∨ 16 < n.toNat) : unpad (q ++ [n]) = none := by
  rw [unpad, List.getLast?_concat]
  exact if_pos h

/-- Settles O28: `unpad_append` says it of the pad's length, which is the final byte's number. -/
theorem unpadChecksFinalByteOnly : Obligations.UnpadChecksFinalByteOnly := by
  refine ⟨rfl, fun q n => unpad_eq_none, fun body inner n h1 h2 hinner => ?_⟩
  have h := unpad_append h1 h2 body inner (by omega)
  rwa [BitVec.ofNat_toNat, BitVec.setWidth_eq] at h

/-! ## MA_SETIV (R165) -/

/-- Settles O25: an ARG with a bit above bit 0 is at least 2, which R75 lists, and each length completes or fails. -/
theorem maSetivLoadsChain : Obligations.MaSetivLoadsChain := by
  refine ⟨decodeOfEncode (.maSetiv false) rfl, decodeOfEncode (.maSetiv true) rfl, fun w hop harg => ?_, fun s =>
    ⟨fun hl => exec_of_completes (i := .maSetiv false) ⟨hl, rfl, rfl⟩,
      fun hl => exec_of_fails (i := .maSetiv false) ⟨rfl, hl⟩,
      fun hd ha => exec_of_completes (i := .maSetiv true) ⟨by simp [hd], ha, rfl, rfl⟩,
      fun hd => exec_of_fails (i := .maSetiv true) ⟨rfl, by simpa using hd⟩⟩⟩
  have hlarge : ∀ arg : Byte, arg.extractLsb' 1 7 ≠ 0 → 2 ≤ arg.toNat := by decide
  have hnum : (opField w).toNat = 0x10 := congrArg BitVec.toNat hop
  have hillegal : (opField w).toNat = 0x10 ∧ 2 ≤ (argField w).toNat := ⟨hnum, hlarge _ harg⟩
  rw [decode_eq_none_iff, IllegalWord]
  tauto

/-! ## Pieces of a byte string (R12) -/

theorem piece_zero (b : Bytes) : piece b 0 = b.take 16 := rfl

/-- Dropping the first 16 bytes moves every piece down one place. -/
theorem piece_drop (b : Bytes) (k : Nat) : piece (b.drop 16) k = piece b (k + 1) := by
  rw [piece, piece, List.drop_drop]
  congr 2
  omega

/-- A whole piece in front is piece 0. -/
theorem piece_append_zero {a : Bytes} (h : a.length = 16) (b : Bytes) : piece (a ++ b) 0 = a := by
  rw [piece_zero, List.take_left' h]

/-- A whole piece in front moves every piece up one place. -/
theorem piece_append_succ {a : Bytes} (h : a.length = 16) (b : Bytes) (k : Nat) :
    piece (a ++ b) (k + 1) = piece b k := by
  rw [← piece_drop, List.drop_left' h]

theorem blockAt_drop (b : Bytes) (k : Nat) : blockAt (b.drop 16) k = blockAt b (k + 1) := by
  rw [blockAt, piece_drop, blockAt]

theorem blocks_length (b : Bytes) : (blocks b).length = (b.length + 15) / 16 := chunks_length ..

/-- The pieces of blocks written out are their bytes. -/
theorem piece_joinBlocks {bs : List Block} {k : Nat} (h : k < bs.length) :
    piece (joinBlocks bs) k = blockBytes bs[k] := by
  induction bs generalizing k with
  | nil => simp at h
  | cons b bs ih =>
    rw [joinBlocks_cons]
    cases k with
    | zero => exact piece_append_zero (blockBytes_length b) _
    | succ k => rw [piece_append_succ (blockBytes_length b), ih (by simpa using h)]; rfl

/-- The blocks a string is split into are those `blockAt` reads. -/
theorem wholeBlocks_getElem {b : Bytes} {k : Nat} (h : k < (wholeBlocks b).length) :
    (wholeBlocks b)[k] = blockAt b k := by
  simp only [wholeBlocks, blocks, List.getElem_map, chunks_getElem, blockAt, piece]

/-! ## Chaining over blocks (R172 to R175) -/

/-- One chaining mode: with the chaining value `v` a block `b` gives the output `out v b`, and `next v b` is the
chaining value of the block after it. -/
def chainBlocks (out next : Block → Block → Block) : Block → List Block → List Block × Block
  | v, [] => ([], v)
  | v, b :: bs => (out v b :: (chainBlocks out next (next v b) bs).1, (chainBlocks out next (next v b) bs).2)

section
variable (e d : Block → Block) (v : Block) (bs : List Block)

/-! The four modes of the model are chaining modes in this sense. -/

theorem cbcEncrypt_eq_chainBlocks :
    cbcEncrypt e v bs = chainBlocks (fun v p => e (xorBlock p v)) (fun v p => e (xorBlock p v)) v bs := by
  induction bs generalizing v with
  | nil => rfl
  | cons b bs ih => simp only [cbcEncrypt, chainBlocks, ih]

theorem cbcDecrypt_eq_chainBlocks :
    cbcDecrypt d v bs = chainBlocks (fun v c => xorBlock (d c) v) (fun _ c => c) v bs := by
  induction bs generalizing v with
  | nil => rfl
  | cons b bs ih => simp only [cbcDecrypt, chainBlocks, ih]

theorem cfbEncrypt_eq_chainBlocks :
    cfbEncrypt e v bs = chainBlocks (fun v p => xorBlock (e v) p) (fun v p => xorBlock (e v) p) v bs := by
  induction bs generalizing v with
  | nil => rfl
  | cons b bs ih => simp only [cfbEncrypt, chainBlocks, ih]

theorem cfbDecrypt_eq_chainBlocks :
    cfbDecrypt e v bs = chainBlocks (fun v c => xorBlock (e v) c) (fun _ c => c) v bs := by
  induction bs generalizing v with
  | nil => rfl
  | cons b bs ih => simp only [cfbDecrypt, chainBlocks, ih]

end

section
variable (out next : Block → Block → Block)

/-- The chaining value before block `k`: what the first `k` blocks make of `v`. -/
def chainValue (next : Block → Block → Block) (v : Block) (bs : List Block) (k : Nat) : Block :=
  (bs.take k).foldl next v

theorem chainValue_succ (v : Block) {bs : List Block} {k : Nat} (h : k < bs.length) :
    chainValue next v bs (k + 1) = next (chainValue next v bs k) bs[k] := by
  rw [chainValue, List.take_succ_eq_append_getElem h, List.foldl_concat]
  rfl

/-- A chaining mode ends on the chaining value after its last block (R163). -/
theorem chainBlocks_snd (v : Block) (bs : List Block) :
    (chainBlocks out next v bs).2 = chainValue next v bs bs.length := by
  induction bs generalizing v with
  | nil => rfl
  | cons b bs ih => exact ih (next v b)

theorem chainBlocks_fst_length (v : Block) (bs : List Block) : (chainBlocks out next v bs).1.length = bs.length := by
  induction bs generalizing v with
  | nil => rfl
  | cons b bs ih => simp [chainBlocks, ih]

/-- Output block `k` is made with the chaining value before it. -/
theorem chainBlocks_fst_getElem (v : Block) (bs : List Block) (k : Nat) (h : k < bs.length) :
    (chainBlocks out next v bs).1[k]'(by rwa [chainBlocks_fst_length]) = out (chainValue next v bs k) bs[k] := by
  induction bs generalizing v k with
  | nil => simp at h
  | cons b bs ih =>
    cases k with
    | zero => rfl
    | succ k => exact ih (next v b) k (by simpa using h)

/-- What a chaining mode makes of the `n` blocks of `b`, said of bytes: `w k` is the chaining value before block `k`,
and `r` is the mode's answer. -/
structure Chains (out next : Block → Block → Block) (w : Nat → Block) (b : Bytes) (n : Nat) (r : List Block × Block) :
    Prop where
  length : (joinBlocks r.1).length = 16 * n
  value : ∀ k, k < n → w (k + 1) = next (w k) (blockAt b k)
  output : ∀ k, k < n → piece (joinBlocks r.1) k = blockBytes (out (w k) (blockAt b k))
  last : r.2 = w n

/-- `chainValue` gives the chaining values of `chainBlocks`. -/
theorem chainBlocks_chains (v : Block) {b : Bytes} {n : Nat} (hn : (wholeBlocks b).length = n) :
    ∃ w : Nat → Block, w 0 = v ∧ Chains out next w b n (chainBlocks out next v (wholeBlocks b)) := by
  subst hn
  refine ⟨chainValue next v (wholeBlocks b), rfl, ?_, fun k hk => ?_, fun k hk => ?_, chainBlocks_snd ..⟩
  · rw [joinBlocks_length, chainBlocks_fst_length]
  · rw [chainValue_succ next v hk, wholeBlocks_getElem]
  · rw [piece_joinBlocks (by rwa [chainBlocks_fst_length]), chainBlocks_fst_getElem out next v _ k hk,
      wholeBlocks_getElem]

end

section
variable (e d : Block → Block) (v : Block) {b : Bytes} {n : Nat} (hn : (wholeBlocks b).length = n)
include hn

/-- CBC encryption: the output block is the next chaining value (R172). -/
theorem cbcEncrypt_chains :
    ∃ w : Nat → Block, w 0 = v ∧
      Chains (fun v p => e (xorBlock p v)) (fun v p => e (xorBlock p v)) w b n (cbcEncrypt e v (wholeBlocks b)) := by
  rw [cbcEncrypt_eq_chainBlocks]
  exact chainBlocks_chains _ _ v hn

/-- CBC decryption: the input block is the next chaining value (R173). -/
theorem cbcDecrypt_chains :
    ∃ w : Nat → Block, w 0 = v ∧
      Chains (fun v c => xorBlock (d c) v) (fun _ c => c) w b n (cbcDecrypt d v (wholeBlocks b)) := by
  rw [cbcDecrypt_eq_chainBlocks]
  exact chainBlocks_chains _ _ v hn

/-- CFB encryption: the output block is the next chaining value (R174). -/
theorem cfbEncrypt_chains :
    ∃ w : Nat → Block, w 0 = v ∧
      Chains (fun v p => xorBlock (e v) p) (fun v p => xorBlock (e v) p) w b n (cfbEncrypt e v (wholeBlocks b)) := by
  rw [cfbEncrypt_eq_chainBlocks]
  exact chainBlocks_chains _ _ v hn

/-- CFB decryption: the input block is the next chaining value (R175). -/
theorem cfbDecrypt_chains :
    ∃ w : Nat → Block, w 0 = v ∧
      Chains (fun v c => xorBlock (e v) c) (fun _ c => c) w b n (cfbDecrypt e v (wholeBlocks b)) := by
  rw [cfbDecrypt_eq_chainBlocks]
  exact chainBlocks_chains _ _ v hn

end

/-! ## The commands of the block modes (R170 to R175) -/

/-- A padded string has one block more than the string has whole blocks (R160). -/
theorem wholeBlocks_pad_length (p : Bytes) : (wholeBlocks (pad p)).length = p.length / 16 + 1 := by
  rw [wholeBlocks_length, pad_length]
  omega

theorem wholeBlocks_length_of_mod {b : Bytes} (h : b.length % 16 = 0) : (wholeBlocks b).length = b.length / 16 := by
  rw [wholeBlocks_length]
  omega

/-- ECB maps each block by itself (R170, R171). -/
theorem piece_joinBlocks_map (f : Block → Block) {b : Bytes} {k : Nat} (h : k < (wholeBlocks b).length) :
    piece (joinBlocks ((wholeBlocks b).map f)) k = blockBytes (f (blockAt b k)) := by
  rw [piece_joinBlocks (by rwa [List.length_map]), List.getElem_map, wholeBlocks_getElem]

/-- Settles O29: the blocks of the padded DIN are mapped one by one. -/
theorem ecbEncEncryptsEachBlock : Obligations.EcbEncEncryptsEachBlock := by
  refine ⟨decodeOfEncode .ecbEnc rfl, fun s =>
    ⟨fun hk => ⟨_, ?_, fun k hlt => ?_, exec_of_completes (i := .ecbEnc) ⟨hk, rfl, rfl⟩⟩,
      fun hk => exec_of_fails (i := .ecbEnc) ⟨rfl, hk⟩⟩⟩
  · rw [joinBlocks_length, List.length_map, wholeBlocks_pad_length, pad_length]
  · exact piece_joinBlocks_map _ (by rwa [wholeBlocks_pad_length])

/-- Settles O30: the blocks of DIN are mapped one by one, and each check of the rule has its answer. -/
theorem ecbDecDecryptsEachBlock : Obligations.EcbDecDecryptsEachBlock := by
  refine ⟨decodeOfEncode .ecbDec rfl, fun s =>
    ⟨fun hk hm => ⟨joinBlocks ((wholeBlocks s.din).map (decBlock s.rk)), ?_, fun k hlt => ?_,
        fun r hr => exec_of_completes (i := .ecbDec) ⟨hk, hm, rfl, hr⟩,
        fun hr => exec_of_fails (i := .ecbDec) (.inr (.inr ⟨rfl, hk, hm, hr⟩))⟩,
      fun hk hm => exec_of_fails (i := .ecbDec) (.inr (.inl ⟨rfl, hk, hm⟩)),
      fun hk => exec_of_fails (i := .ecbDec) (.inl ⟨rfl, hk⟩)⟩⟩
  · rw [joinBlocks_length, List.length_map, wholeBlocks_length_of_mod hm]
    omega
  · exact piece_joinBlocks_map _ (by rwa [wholeBlocks_length_of_mod hm])

/-- Settles O31: each output block is the next chaining value. -/
theorem cbcEncChainsCiphertext : Obligations.CbcEncChainsCiphertext := by
  refine ⟨decodeOfEncode .cbcEnc rfl, fun s => ⟨fun hk hv => ?_, fun h => exec_of_fails (i := .cbcEnc) ⟨rfl, h⟩⟩⟩
  have hexec := exec_of_completes (s := s) (i := .cbcEnc) ⟨hk, hv, rfl, rfl⟩
  obtain ⟨w, h0, hw⟩ := cbcEncrypt_chains (encBlock s.rk) s.chain (wholeBlocks_pad_length s.din)
  rw [hw.last] at hexec
  exact ⟨w, _, h0, hw.length, fun k hlt => ⟨hw.value k hlt, hw.value k hlt ▸ hw.output k hlt⟩, hexec⟩

/-- Settles O32: CHAIN is written with the last chaining value where Unpad succeeds. -/
theorem cbcDecChainsCiphertext : Obligations.CbcDecChainsCiphertext := by
  refine ⟨decodeOfEncode .cbcDec rfl, fun s => ⟨fun hk hv hm => ?_,
    fun hk hv hm => exec_of_fails (i := .cbcDec) (.inr (.inl ⟨rfl, hk, hv, hm⟩)),
    fun h => exec_of_fails (i := .cbcDec) (.inl ⟨rfl, h⟩)⟩⟩
  obtain ⟨w, h0, hw⟩ := cbcDecrypt_chains (decBlock s.rk) s.chain (wholeBlocks_length_of_mod hm)
  refine ⟨w, _, h0, hw.length.trans (by omega), fun k hlt => ⟨hw.value k hlt, hw.output k hlt⟩, fun r hr => ?_,
    fun hr => exec_of_fails (i := .cbcDec) (.inr (.inr ⟨rfl, hk, hv, hm, hr⟩))⟩
  rw [← hw.last]
  exact exec_of_completes (i := .cbcDec) ⟨hk, hv, hm, rfl, hr⟩

/-- Settles O33: DOUT is the chaining values themselves, the first of them CHAIN. -/
theorem cfbEncFeedsCiphertextBack : Obligations.CfbEncFeedsCiphertextBack := by
  refine ⟨decodeOfEncode .cfbEnc rfl, fun s => ⟨fun hk hv => ?_, fun h => exec_of_fails (i := .cfbEnc) ⟨rfl, h⟩⟩⟩
  have hexec := exec_of_completes (s := s) (i := .cfbEnc) ⟨hk, hv, rfl, rfl⟩
  obtain ⟨w, h0, hw⟩ := cfbEncrypt_chains (encBlock s.rk) s.chain (wholeBlocks_pad_length s.din)
  rw [hw.last] at hexec
  refine ⟨w, _, h0, ?_, hw.value, fun k hle => ?_, hexec⟩
  · rw [List.length_append, blockBytes_length, hw.length]
  · cases k with
    | zero => rw [piece_append_zero (blockBytes_length _), h0]
    | succ k => rw [piece_append_succ (blockBytes_length _), hw.output k hle, hw.value k hle]

/-- Settles O34: the chaining values are the blocks of DIN itself, the first of them the prefix. -/
theorem cfbDecStartsFromPrefix : Obligations.CfbDecStartsFromPrefix := by
  refine ⟨decodeOfEncode .cfbDec rfl, fun s => ⟨fun hk hl hm => ?_,
    fun hk hl => exec_of_fails (i := .cfbDec) (.inr (.inl ⟨rfl, hk, hl⟩)),
    fun hk hl hm => exec_of_fails (i := .cfbDec) (.inr (.inr (.inl ⟨rfl, hk, hl, by omega⟩))),
    fun hk => exec_of_fails (i := .cfbDec) (.inl ⟨rfl, hk⟩)⟩⟩
  have hbody : (s.din.length - 16) % 16 = 0 := by omega
  have hn : (wholeBlocks (s.din.drop 16)).length = s.din.length / 16 - 1 := by
    rw [wholeBlocks_length, List.length_drop]
    omega
  obtain ⟨w, h0, hw⟩ := cfbDecrypt_chains (encBlock s.rk) (blockOf (s.din.take 16)) hn
  have hvalue : ∀ k, k < s.din.length / 16 → w k = blockAt s.din k := by
    intro k hlt
    cases k with
    | zero => exact h0
    | succ k => rw [hw.value k (by omega), blockAt_drop]
  refine ⟨w, _, hw.length.trans (by omega), hvalue, fun k hlt => ?_, fun r hr => ?_,
    fun hr => exec_of_fails (i := .cfbDec) (.inr (.inr (.inr ⟨rfl, hk, hl, hbody, hr⟩)))⟩
  · rw [hw.output k (by omega), hw.value k (by omega)]
  · rw [← hw.last]
    exact exec_of_completes (i := .cfbDec) ⟨hk, hl, hbody, rfl, hr⟩

/-! ## The keystream mode (R176, R177) -/

section
variable (e : Block → Block)

/-- The final chaining value is the last whole keystream block, however short the last piece is (R176). -/
theorem ofbCrypt_snd (v : Block) (ps : List Bytes) : (ofbCrypt e v ps).2 = e^[ps.length] v := by
  induction ps generalizing v with
  | nil => rfl
  | cons p ps ih => exact ih (e v)

/-- OFB takes the first 16 bytes of a non-empty message with the next keystream block, and the rest from there on. -/
theorem ofbCrypt_blocks_fst (v : Block) {b : Bytes} (h : b ≠ []) :
    (ofbCrypt e v (blocks b)).1 = xorBytes (piece b 0) ((blockBytes (e v)).take (piece b 0).length) ++
      (ofbCrypt e (e v) (blocks (b.drop 16))).1 := by
  rw [blocks_of_ne_nil h]
  rfl

/-- A piece keeps its length when the keystream is cut to it. -/
theorem xorBytes_keystream_length (x : Block) (b : Bytes) (k : Nat) :
    (xorBytes (piece b k) ((blockBytes x).take (piece b k).length)).length = min 16 (b.length - 16 * k) := by
  simp [piece]

/-- Piece `k` of the output is piece `k` of the message with keystream block `k + 1` (R176). -/
theorem piece_ofbCrypt (v : Block) (b : Bytes) (k : Nat) (h : k < (b.length + 15) / 16) :
    piece (ofbCrypt e v (blocks b)).1 k =
      xorBytes (piece b k) ((blockBytes (e^[k + 1] v)).take (piece b k).length) := by
  have hne : b ≠ [] := List.ne_nil_of_length_pos (by omega)
  have hlen := xorBytes_keystream_length (e v) b 0
  rw [ofbCrypt_blocks_fst e v hne]
  cases k with
  | zero =>
    by_cases hwhole : 16 ≤ b.length
    · exact piece_append_zero (by omega) _
    · rw [List.drop_eq_nil_of_le (by omega), blocks_nil, ofbCrypt, List.append_nil]
      exact List.take_of_length_le (hlen.trans_le (min_le_left ..))
  | succ k =>
    have hrest : (b.drop 16).length = b.length - 16 := List.length_drop
    rw [piece_append_succ (by omega), piece_ofbCrypt (e v) (b.drop 16) k (by omega), piece_drop]
    rfl

/-- OFB over two lists of pieces goes on from the chaining value the first leaves. -/
theorem ofbCrypt_append (v : Block) (ps qs : List Bytes) :
    ofbCrypt e v (ps ++ qs) =
      ((ofbCrypt e v ps).1 ++ (ofbCrypt e (ofbCrypt e v ps).2 qs).1, (ofbCrypt e (ofbCrypt e v ps).2 qs).2) := by
  induction ps generalizing v with
  | nil => rfl
  | cons p ps ih => simp only [List.cons_append, ofbCrypt, ih, List.append_assoc]

end

/-- The pieces of whole blocks with a string after them. -/
theorem blocks_append {b : Bytes} (h : b.length % 16 = 0) (q : Bytes) : blocks (b ++ q) = blocks b ++ blocks q := by
  rw [← joinBlocks_wholeBlocks h]
  induction wholeBlocks b with
  | nil => rfl
  | cons x xs ih =>
    rw [joinBlocks_cons, List.append_assoc, blocks_append_of_length (blockBytes_length x), ih,
      blocks_append_of_length (blockBytes_length x), List.cons_append]

/-- OFB_ENC completes with CHAIN in front and IVLD, which it finds set, left set (R176). -/
theorem exec_ofbEnc_ok {s : State} (hk : s.keyed = true) (hv : s.ivld = true) :
    exec .ofbEnc s = .next ((s.setChain (ofbCrypt (encBlock s.rk) s.chain (blocks s.din)).2).respond .ok
      (blockBytes s.chain ++ (ofbCrypt (encBlock s.rk) s.chain (blocks s.din)).1)) := by
  have hivld := State.setIvld_of_ivld (s := s.setChain (ofbCrypt (encBlock s.rk) s.chain (blocks s.din)).2) hv
  rw [exec_of_completes (i := .ofbEnc) ⟨hk, hv, rfl, rfl⟩, hivld]

/-- Settles O35: the keystream is the cipher iterated from CHAIN. -/
theorem ofbEncAppliesKeystream : Obligations.OfbEncAppliesKeystream := by
  refine ⟨decodeOfEncode .ofbEnc rfl, fun s => ⟨fun hk hv => ?_, fun h => exec_of_fails (i := .ofbEnc) ⟨rfl, h⟩⟩⟩
  have hexec := exec_of_completes (s := s) (i := .ofbEnc) ⟨hk, hv, rfl, rfl⟩
  rw [ofbCrypt_snd, blocks_length] at hexec
  exact ⟨fun k => (encBlock s.rk)^[k] s.chain, _, rfl, fun k => Function.iterate_succ_apply' ..,
    ofbCrypt_blocks_length .., piece_ofbCrypt _ _ _, hexec⟩

/-- Settles O36: the same keystream from the prefix, over the pieces after it. -/
theorem ofbDecStartsFromPrefix : Obligations.OfbDecStartsFromPrefix := by
  refine ⟨decodeOfEncode .ofbDec rfl, fun s => ⟨fun hk hl => ?_,
    fun hk hl => exec_of_fails (i := .ofbDec) (.inr ⟨rfl, hk, hl⟩),
    fun hk => exec_of_fails (i := .ofbDec) (.inl ⟨rfl, hk⟩)⟩⟩
  have hexec := exec_of_completes (s := s) (i := .ofbDec) ⟨hk, hl, rfl, rfl⟩
  have hn : ((s.din.drop 16).length + 15) / 16 = (s.din.length - 1) / 16 := by
    rw [List.length_drop]
    omega
  rw [ofbCrypt_snd, blocks_length, hn] at hexec
  refine ⟨fun k => (encBlock s.rk)^[k] (blockOf (s.din.take 16)), _, rfl, fun k => Function.iterate_succ_apply' ..,
    ?_, fun k hlt => ?_, hexec⟩
  · rw [ofbCrypt_blocks_length, List.length_drop]
  · rw [piece_ofbCrypt _ _ _ _ (by rwa [hn]), piece_drop]

/-! ## Round trips (R178) -/

section
variable (v : Block) (b : Bytes)

/-- The prefix and the body of a message that starts with a block (R175, R177). -/
@[simp] theorem take_blockBytes_append : (blockBytes v ++ b).take 16 = blockBytes v :=
  List.take_left' (blockBytes_length v)

@[simp] theorem drop_blockBytes_append : (blockBytes v ++ b).drop 16 = b := List.drop_left' (blockBytes_length v)

end

@[simp] theorem unpad_joinBlocks_wholeBlocks_pad (p : Bytes) : unpad (joinBlocks (wholeBlocks (pad p))) = some p := by
  rw [joinBlocks_wholeBlocks (pad_length_mod p), unpad_pad]

/-- Settles O37: decryption undoes encryption block by block. -/
theorem ecbRoundTrip : Obligations.EcbRoundTrip := by
  refine fun s hk => ⟨_, exec_of_completes (i := .ecbEnc) ⟨hk, rfl, rfl⟩, fun t htk hrk hdin => ?_⟩
  refine exec_of_completes (i := .ecbDec) ⟨htk, by simp [hdin], rfl, ?_⟩
  have hinv : decBlock s.rk ∘ encBlock s.rk = id := funext (decBlock_encBlock s.rk)
  rw [hdin, hrk, wholeBlocks_joinBlocks, List.map_map, hinv, List.map_id, unpad_joinBlocks_wholeBlocks_pad]

/-- Settles O38: `cbcDecrypt_cbcEncrypt` on the blocks of the padded message. -/
theorem cbcRoundTrip : Obligations.CbcRoundTrip := by
  refine fun s hk hv => ⟨_, _, exec_of_completes (i := .cbcEnc) ⟨hk, hv, rfl, rfl⟩, fun t htk htv hrk hchain hdin => ?_⟩
  have hround : cbcDecrypt (decBlock t.rk) t.chain (wholeBlocks t.din) =
      (wholeBlocks (pad s.din), (cbcEncrypt (encBlock s.rk) s.chain (wholeBlocks (pad s.din))).2) := by
    rw [hrk, hchain, hdin, wholeBlocks_joinBlocks]
    exact cbcDecrypt_cbcEncrypt _ _ (decBlock_encBlock s.rk) ..
  refine exec_of_completes (i := .cbcDec) ⟨htk, htv, by simp [hdin], ?_, ?_⟩
  · rw [hround]
    rfl
  · rw [hround, unpad_joinBlocks_wholeBlocks_pad]

/-- Settles O39: the prefix is the CHAIN that encryption started from. -/
theorem cfbRoundTrip : Obligations.CfbRoundTrip := by
  refine fun s hk hv => ⟨_, _, exec_of_completes (i := .cfbEnc) ⟨hk, hv, rfl, rfl⟩, fun t htk hrk hdin => ?_⟩
  have hround : cfbDecrypt (encBlock t.rk) (blockOf (t.din.take 16)) (wholeBlocks (t.din.drop 16)) =
      (wholeBlocks (pad s.din), (cfbEncrypt (encBlock s.rk) s.chain (wholeBlocks (pad s.din))).2) := by
    rw [hrk, hdin, take_blockBytes_append, drop_blockBytes_append, blockOf_blockBytes, wholeBlocks_joinBlocks]
    exact cfbDecrypt_cfbEncrypt ..
  refine exec_of_completes (i := .cfbDec) ⟨htk, by simp [hdin], by simp [hdin], ?_, ?_⟩
  · rw [hround]
    rfl
  · rw [hround, unpad_joinBlocks_wholeBlocks_pad]

/-- Settles O40: as O39, with the pieces of a message of any length. -/
theorem ofbRoundTrip : Obligations.OfbRoundTrip := by
  refine fun s hk hv => ⟨_, _, exec_ofbEnc_ok hk hv, fun t htk hrk hdin => ?_⟩
  have hround : ofbCrypt (encBlock t.rk) (blockOf (t.din.take 16)) (blocks (t.din.drop 16)) =
      (s.din, (ofbCrypt (encBlock s.rk) s.chain (blocks s.din)).2) := by
    rw [hrk, hdin, take_blockBytes_append, drop_blockBytes_append, blockOf_blockBytes]
    exact ofbCrypt_ofbCrypt ..
  refine exec_of_completes (i := .ofbDec) ⟨htk, by simp [hdin], ?_, ?_⟩
  · rw [hround]
    rfl
  · rw [hround]

/-- Settles O41: a message of whole blocks keeps its pieces when another follows, and OFB goes on from its last chaining
value. -/
theorem ofbContinuesItsChain : Obligations.OfbContinuesItsChain := by
  intro s q hk hv hm
  have hjoined := exec_ofbEnc_ok (s := { s with din := s.din ++ q }) hk hv
  simp only [blocks_append hm, ofbCrypt_append, ← List.append_assoc] at hjoined
  refine ⟨_, _, _, _, exec_ofbEnc_ok hk hv, fun t htk htv hrk hchain hdin => ?_, hjoined⟩
  have ht := exec_ofbEnc_ok htk htv
  rwa [hrk, hchain, hdin] at ht

end Sys2Proof.Machine
end

section
/-! PROOFS of the statements of 43_keystream.md: loading (R200, R201), the tap words (R202, R203), the nonlinear function
(R204), the register step (R205 to R207), the commands KG_INIT and KG_GEN (R208 to R213) and their known answers (R214). -/

namespace Sys2Proof.Machine

/-! ## Words put together of fields, as numbers -/

/-- Two fields side by side, read as a number. -/
theorem toNat_append_eq_add {m n : Nat} (a : BitVec m) (b : BitVec n) : (a ++ b).toNat = 2 ^ n * a.toNat + b.toNat := by
  rw [BitVec.toNat_append, ← Nat.shiftLeft_add_eq_or_of_lt b.isLt, Nat.shiftLeft_eq, Nat.mul_comm]

/-- The bits from `k` up to the top, read as a number. -/
theorem toNat_extractLsb'_top {w k n : Nat} (x : BitVec w) (h : w = k + n) :
    (x.extractLsb' k n).toNat = x.toNat / 2 ^ k := by
  have hlt : x.toNat / 2 ^ k < 2 ^ n := Nat.div_lt_of_lt_mul (by rw [← Nat.pow_add, ← h]; exact x.isLt)
  rw [BitVec.extractLsb'_toNat, Nat.shiftRight_eq_div_pow, Nat.mod_eq_of_lt hlt]

/-- The lowest `n` bits, read as a number. -/
theorem toNat_extractLsb'_zero {w : Nat} (x : BitVec w) (n : Nat) : (x.extractLsb' 0 n).toNat = x.toNat % 2 ^ n := by
  rw [BitVec.extractLsb'_toNat, Nat.shiftRight_zero]

/-! ## Loading and the tap words -/

/-- A loaded cell is key byte, constant and IV byte (R201). -/
theorem loadCells_getElem (k iv : Block) {i : Nat} (h : i < 16) :
    (loadCells k iv)[i] = k[i] ++ loadConst[i] ++ iv[i] := by
  simp [loadCells]

/-- No load constant is 0 (R200). -/
theorem loadConst_pos : ∀ i : Fin 16, 0 < loadConst[i].toNat := by decide

/-- Settles O43: the three fields side by side, and a constant of at least 1 above the IV byte. -/
theorem loadPacksCells : Obligations.LoadPacksCells := by
  intro k iv i h
  have hcell : (loadCells k iv)[i].toNat = 2 ^ 23 * k[i].toNat + 2 ^ 8 * loadConst[i].toNat + iv[i].toNat := by
    rw [loadCells_getElem k iv h, toNat_append_eq_add, toNat_append_eq_add, Nat.mul_add, ← Nat.mul_assoc, ← Nat.pow_add]
  have hconst : 0 < loadConst[i].toNat := loadConst_pos ⟨i, h⟩
  exact ⟨hcell, by omega⟩

@[simp] theorem highHalf_toNat (c : Cell) : (highHalf c).toNat = c.toNat / 2 ^ 15 := toNat_extractLsb'_top c rfl

@[simp] theorem lowHalf_toNat (c : Cell) : (lowHalf c).toNat = c.toNat % 2 ^ 16 := toNat_extractLsb'_zero c 16

/-- Settles O44: a tap word is two half-words side by side. -/
theorem tapsTakeHalfWords : Obligations.TapsTakeHalfWords := by
  intro s
  simp only [taps, toNat_append_eq_add, highHalf_toNat, lowHalf_toNat, and_self]

/-! ## The nonlinear function -/

/-- The word of one word's low half and another's high half, as F mixes W1 and W2 (R204). -/
theorem toNat_low_append_high (a b : Word) :
    (a.extractLsb' 0 16 ++ b.extractLsb' 16 16).toNat = 2 ^ 16 * (a.toNat % 2 ^ 16) + b.toNat / 2 ^ 16 := by
  rw [toNat_append_eq_add, toNat_extractLsb'_zero, toNat_extractLsb'_top b rfl]

/-- Settles O45: W1 and W2 are made of the old R1 and R2, and each mix is a low half beside a high half. -/
theorem nonlinearFunctionMixes : Obligations.NonlinearFunctionMixes := by
  intro x0 x1 x2 r1 r2
  refine ⟨r1 + x1, r2 ^^^ x2, _, _, BitVec.toNat_add .., rfl, toNat_low_append_high .., toNat_low_append_high .., ?_⟩
  rw [nonlinear]
  exact ⟨BitVec.toNat_add .., rfl, rfl⟩

/-! ## The register step -/

/-- The new cell is in [1, 2^31 - 1] (R206). -/
theorem newCell_mem_range (s : Cells) (u : Nat) : 1 ≤ (newCell s u).toNat ∧ (newCell s u).toNat ≤ p31 := by
  have hlt : (feedback s + u) % p31 < p31 := Nat.mod_lt _ (by decide)
  have hp : 1 ≤ p31 := by decide
  rw [newCell_toNat]
  split <;> omega

/-- Putting P31 for 0 does not change the residue, so the new cell is congruent to the reduced sum plus `u` (R206). -/
theorem newCell_modEq (s : Cells) (u : Nat) : (newCell s u).toNat ≡ feedback s + u [MOD p31] := by
  rw [newCell_toNat]
  split
  case isTrue hzero => exact (Nat.mod_self p31).trans hzero.symm
  case isFalse => exact Nat.mod_modEq ..

/-- Settles O46: reducing the feedback sum before `u` is added does not change the residue. -/
theorem registerStepFeedsBack : Obligations.RegisterStepFeedsBack := by
  intro s u
  have hlast : (stepInit s u)[15] = newCell s u := shiftIn_getElem_last s _
  obtain ⟨hlo, hhi⟩ := newCell_mem_range s u
  have hsum := (newCell_modEq s u).trans ((Nat.mod_modEq ..).add_right u)
  rw [hlast]
  exact ⟨fun i hi => shiftIn_getElem_lt s _ i hi, hlo, hhi, hsum, rfl⟩

/-! ## KG_INIT (R208, R209, R212) -/

/-- The generator after `n` steps of a start from `k` and `iv`: loaded, then 32 initialisation rounds, then warm-up steps
(R208, R209). -/
def startSequence (k iv : Block) : Nat → Gen
  | 0 => ⟨loadCells k iv, 0, 0⟩
  | n + 1 => if n < 32 then (startSequence k iv n).initRound else (startSequence k iv n).warmUp

/-- The first 32 steps are initialisation rounds (R208). -/
theorem startSequence_succ (k iv : Block) {n : Nat} (h : n < 32) :
    startSequence k iv (n + 1) = (startSequence k iv n).initRound := if_pos h

/-- Step 33 is the warm-up (R209). -/
theorem startSequence_warmUp (k iv : Block) : startSequence k iv 33 = (startSequence k iv 32).warmUp := rfl

/-- Rounds done from step `m` of the sequence on lead to its later steps, up to step 32. -/
theorem initRounds_startSequence (k iv : Block) {m n : Nat} (h : m + n ≤ 32) :
    Gen.initRounds n (startSequence k iv m) = startSequence k iv (m + n) := by
  induction n generalizing m with
  | zero => rfl
  | succ n ih =>
    rw [Gen.initRounds, ← startSequence_succ k iv (by omega), ih (by omega), Nat.add_right_comm, Nat.add_assoc]

/-- The model's `Init` is the first 32 steps (R208). -/
theorem genInit_eq_startSequence (k iv : Block) : genInit k iv = startSequence k iv 32 := by
  rw [genInit]
  exact initRounds_startSequence k iv (m := 0) (by decide)

/-- An initialisation round with `W >> 1` as a number (R208). -/
theorem Gen.initRound_eq (g : Gen) : g.initRound = ⟨stepInit g.cells (g.mix.w.toNat / 2), g.mix.r1, g.mix.r2⟩ := by
  rw [Gen.initRound, BitVec.toNat_ushiftRight, Nat.shiftRight_one]

section
variable {s : State}

/-- KG_INIT with a 16-byte key and a 16-byte IV leaves the initialised and warmed-up generator running (R212). -/
theorem exec_kgInit_ok (h : s.din.length = 32) :
    exec (.kgInit 16) s = .next
      (((s.setGen (genInit (blockAt s.din 0) (blockAt s.din 1)).warmUp).setKgst .running).respond .ok []) := by
  have hiv : piece s.din 1 = s.din.drop 16 := List.take_of_length_le (by simp [h])
  rw [blockAt, blockAt, hiv, piece_zero]
  exact exec_of_completes (i := .kgInit 16) ⟨rfl, h, rfl, rfl⟩

/-- KG_GEN on a running generator answers its word and advances it (R213). -/
theorem exec_kgGen_ok (hd : s.din = []) (hr : s.kgst = .running) :
    exec .kgGen s = .next ((s.setGen s.gen.advance).respond .ok (b32 s.gen.word)) :=
  exec_of_completes (i := .kgGen) ⟨hd, hr, rfl, rfl⟩

end

/-- Settles O47: the sequence is `startSequence`, and each other DIN or KLEN fails. -/
theorem kgInitStartsGenerator : Obligations.KgInitStartsGenerator := by
  refine ⟨decodeOfEncode (.kgInit 16) rfl, fun s => ⟨fun hl => ?_,
    fun k h => exec_of_fails (i := .kgInit k) (.inl ⟨rfl, h⟩), exec_kgInit_invalidIvLength⟩⟩
  refine ⟨startSequence (blockAt s.din 0) (blockAt s.din 1), rfl, fun n hn => ?_, ?_, ?_⟩
  · rintro _ _ rfl rfl
    rw [startSequence_succ _ _ hn, Gen.initRound_eq]
    rfl
  · rintro _ _ rfl rfl
    exact startSequence_warmUp ..
  · rw [exec_kgInit_ok hl, genInit_eq_startSequence, ← startSequence_warmUp]
    rfl

/-! ## KG_GEN (R210, R213) -/

/-- Settles O48: `exec_kgGen_ok`, and each other DIN or KGST fails. -/
theorem kgGenProducesNextWord : Obligations.KgGenProducesNextWord := by
  refine ⟨decodeOfEncode .kgGen rfl, fun s => ⟨?_, fun hd hr => exec_of_fails (i := .kgGen) (.inr ⟨rfl, hd, hr⟩),
    fun hd => exec_of_fails (i := .kgGen) (.inl ⟨rfl, hd⟩)⟩⟩
  rintro hd hr _ _ rfl rfl
  exact exec_kgGen_ok hd hr

/-! ## The generator stands alone (R211) -/

section
variable {s t : State} {i : Instr} (hi : i = .kgGen ∨ ∃ k, i = .kgInit k)
include hi

/-- A KG command has a next state from every state: it draws no entropy. -/
theorem exec_kg_next (s : State) : ∃ t, exec i s = .next t := by
  obtain ⟨t, -, ht, -, -⟩ | ⟨rfl, -, -, -⟩ := exec_answers_or_stuck i s
  · exact ⟨t, ht⟩
  · simp at hi

/-- The checks of a KG command read DIN and KGST only. -/
theorem Fails.of_kg_eq {c : StatusCode} (h : Fails s c i) (hd : s.din = t.din) (hk : s.kgst = t.kgst) : Fails t c i := by
  obtain rfl | ⟨k, rfl⟩ := hi
  · rwa [Fails, hd, hk] at h
  · rwa [Fails, hd] at h

/-- A KG command that completes writes S, R1, R2 and KGST only, and what it writes and answers it makes of DIN and of these
four. -/
theorem Completes.of_kg_eq {u : State} {d : Bytes} (h : Completes s u d i) (hd : s.din = t.din) (hg : s.gen = t.gen)
    (hk : s.kgst = t.kgst) :
    ∃ g k, u = (s.setGen g).setKgst k ∧ Completes t ((t.setGen g).setKgst k) d i := by
  obtain rfl | ⟨klen, rfl⟩ := hi
  · obtain ⟨hempty, hr, rfl, rfl⟩ := h
    exact ⟨s.gen.advance, s.kgst, rfl, hd ▸ hempty, hk ▸ hr, by rw [hg, hk]; rfl, by rw [hg]⟩
  · obtain ⟨rfl, hl, rfl, rfl⟩ := h
    exact ⟨_, .running, rfl, rfl, hd ▸ hl, by rw [hd], rfl⟩

end

/-- Settles O51: the two states fail the same check, or complete with the same generator. -/
theorem generatorSharesNoState : Obligations.GeneratorSharesNoState := by
  intro i s t hi hd hc h1 h2 hk
  have hg : s.gen = t.gen := by rw [State.gen, hc, h1, h2, State.gen]
  obtain ⟨s', hs⟩ := exec_kg_next hi s
  obtain ⟨c, hf, rfl⟩ | ⟨u, d, hu, rfl⟩ := exec_next hs
  · refine ⟨s.cells, s.r1, s.r2, s.kgst, ⟨c, []⟩, hs, ?_⟩
    rw [exec_of_fails (hf.of_kg_eq hi hd hk), hc, h1, h2, hk]
    rfl
  · obtain ⟨g, k, rfl, ht⟩ := hu.of_kg_eq hi hd hg hk
    exact ⟨g.cells, g.r1, g.r2, k, ⟨.ok, d⟩, hs, exec_of_completes ht⟩

/-! ## Known answers (R214) -/

/-- A KG_INIT and two KG_GEN answer the first two words of the generator that the KG_INIT starts. -/
theorem exec_kg_firstWords {s : State} {g : Gen} (hl : s.din.length = 32)
    (hg : (genInit (blockAt s.din 0) (blockAt s.din 1)).warmUp = g) :
    ∃ t u v : State, exec (.kgInit 16) s = .next t ∧ exec .kgGen { t with din := [] } = .next u ∧
      exec .kgGen u = .next v ∧
      v.responses = s.responses ++ [⟨.ok, []⟩, ⟨.ok, b32 g.word⟩, ⟨.ok, b32 g.advance.word⟩] := by
  have hinit := exec_kgInit_ok hl
  rw [hg] at hinit
  refine ⟨_, _, _, hinit, exec_kgGen_ok rfl rfl, exec_kgGen_ok rfl rfl, ?_⟩
  exact (List.append_assoc ..).trans (List.append_assoc ..)

/-- The two published words of the all-zero key and IV (R214). -/
theorem firstWords_zeros (g : Gen)
    (hg : (genInit (blockAt (List.replicate 32 0x00) 0) (blockAt (List.replicate 32 0x00) 1)).warmUp = g) :
    b32 g.word = [0x27, 0xBE, 0xDE, 0x74] ∧ b32 g.advance.word = [0x01, 0x80, 0x82, 0xDA] := by
  subst hg
  decide +kernel

/-- The two published words of the all-ones key and IV (R214). -/
theorem firstWords_ones (g : Gen)
    (hg : (genInit (blockAt (List.replicate 32 0xFF) 0) (blockAt (List.replicate 32 0xFF) 1)).warmUp = g) :
    b32 g.word = [0x06, 0x57, 0xCF, 0xA0] ∧ b32 g.advance.word = [0x70, 0x96, 0x39, 0x8B] := by
  subst hg
  decide +kernel

/-- Settles O49: the first two words of each generator are evaluated. -/
theorem knownAnswerKeystream : Obligations.KnownAnswerKeystream := by
  refine fun s => ⟨fun hd => ?_, fun hd => ?_⟩
  · obtain ⟨h1, h2⟩ := firstWords_zeros _ rfl
    rw [← h1, ← h2]
    exact exec_kg_firstWords (by simp [hd]) (by rw [hd])
  · obtain ⟨h1, h2⟩ := firstWords_ones _ rfl
    rw [← h1, ← h2]
    exact exec_kg_firstWords (by simp [hd]) (by rw [hd])

end Sys2Proof.Machine
end

section
/-! PROOFS of the statements of 60_exceptions.md: what a failed command leaves alone (R241), the status codes and their
raisers (R240), NotReady (R244), the order of the checks (R242), the silent entropy port (R247), CORE_STATUS (R248) and
idling (R251). -/

namespace Sys2Proof.Machine

/-! ## Failing and answering an error (R241) -/

/-- The one response a command adds is an error only where a check failed, and then nothing else was changed. -/
theorem exec_failed_response {i : Instr} {s t : State} {r : Response} (h : exec i s = .next t)
    (hr : t.responses = s.responses ++ [r]) (hne : r.status ≠ .ok) :
    Fails s r.status i ∧ r.dout = [] ∧ t = s.respond r.status [] := by
  obtain ⟨c, hf, rfl⟩ | ⟨u, d, hu, rfl⟩ := exec_next h
  · obtain rfl : (⟨c, []⟩ : Response) = r := by simpa using hr
    exact ⟨hf, rfl, rfl⟩
  · obtain ⟨hresp, -, -, -⟩ := hu.ports
    obtain rfl : (⟨.ok, d⟩ : Response) = r := by simpa [hresp] using hr
    exact absurd rfl hne

/-- A command answers an error exactly when one of its checks fails with that status. -/
theorem exec_eq_respond_iff_fails {i : Instr} {s : State} {c : StatusCode} (hc : c ≠ .ok) :
    exec i s = .next (s.respond c []) ↔ Fails s c i := by
  refine ⟨fun h => ?_, exec_of_fails⟩
  obtain ⟨hf, -, -⟩ := exec_failed_response h (State.respond_responses s c []) hc
  exact hf

/-- What serving a command word leaves behind when its response is an error. -/
theorem ServedWord.failed_response {a t : State} {cmd : Word} {r : Response} (h : ServedWord a t cmd)
    (hr : t.responses = a.responses ++ [r]) (hne : r.status ≠ .ok) : r.dout = [] ∧ t = a.respond r.status [] := by
  obtain ⟨-, rfl⟩ | ⟨i, -, hi⟩ := h
  · obtain rfl : (⟨.illegalCommand, []⟩ : Response) = r := by simpa using hr
    exact ⟨rfl, rfl⟩
  · obtain ⟨-, hd, ht⟩ := exec_failed_response hi hr hne
    exact ⟨hd, ht⟩

/-- Settles O13: the port refuses a DIN beyond the limit, and otherwise serves the word on the state that accepted it. -/
theorem failedCommandChangesNothing : Obligations.FailedCommandChangesNothing := by
  intro s t c rest r hp h hr hne
  by_cases hl : c.din.length ≤ Config.maxDinBytes
  · rw [step_command hp hl] at h
    obtain ⟨hd, ht⟩ := (runWord_next h).failed_response hr hne
    obtain ⟨c', d⟩ := r
    subst hd
    exact ⟨rfl, ht⟩
  · rw [step_dinTooLong hp (Nat.lt_of_not_le hl)] at h
    cases h

/-! ## The status codes and their raisers (R240) -/

/-- The "raised by" column of R240 for decoded commands. -/
def Raises (i : Instr) : StatusCode → Prop
  | .ok => True
  | .invalidKeyLength => i = .bcSetkey ∨ ∃ k, i = .kgInit k
  | .invalidIvLength => (∃ b, i = .maSetiv b) ∨ ∃ k, i = .kgInit k
  | .invalidBlockLength => i ∈ [Instr.bcEnc, .bcDec, .ecbDec, .cbcDec, .cfbDec]
  | .malformedPadding => i ∈ [Instr.ecbDec, .cbcDec, .cfbDec]
  | .inputTooShort => i ∈ [Instr.cfbDec, .ofbDec]
  | .illegalCommand => i ∈ [Instr.kgGen, .coreStatus]
  | .notReady => i ∈ [Instr.bcEnc, .bcDec, .ecbEnc, .ecbDec, .cbcEnc, .cbcDec, .cfbEnc, .cfbDec, .ofbEnc, .ofbDec, .kgGen]

/-- A command's failing check gives a status that R240 lists for it. -/
theorem Fails.raises {s : State} {c : StatusCode} {i : Instr} (h : Fails s c i) : Raises i c := by
  cases i
  case maSetiv rnd =>
    cases rnd
    all_goals
      obtain ⟨rfl, -⟩ := h
      simp [Raises]
  case bcSetkey | ecbEnc | cbcEnc | cfbEnc | ofbEnc | coreStatus =>
    obtain ⟨rfl, -⟩ := h
    simp [Raises]
  case bcEnc | bcDec | ofbDec | kgInit | kgGen => obtain ⟨rfl, -⟩ | ⟨rfl, -⟩ := h <;> simp [Raises]
  case ecbDec | cbcDec => obtain ⟨rfl, -⟩ | ⟨rfl, -⟩ | ⟨rfl, -⟩ := h <;> simp [Raises]
  case cfbDec => obtain ⟨rfl, -⟩ | ⟨rfl, -⟩ | ⟨rfl, -⟩ | ⟨rfl, -⟩ := h <;> simp [Raises]

/-- A command answers only with a status that R240 lists for it. -/
theorem exec_response_raises {i : Instr} {s t : State} {r : Response} (h : exec i s = .next t)
    (hr : t.responses = s.responses ++ [r]) : Raises i r.status := by
  by_cases hok : r.status = .ok
  · rw [hok]
    trivial
  · obtain ⟨hf, -, -⟩ := exec_failed_response h hr hok
    exact hf.raises

/-- Settles O14: each clause is a row of `Raises`. -/
theorem statusCodesHaveTheirRaisers : Obligations.StatusCodesHaveTheirRaisers := by
  refine ⟨rfl, fun i s t r h hr => ?_⟩
  have hrow := exec_response_raises h hr
  refine ⟨?_, ?_, ?_, ?_, ?_, ?_, ?_⟩
  all_goals
    intro hc
    rwa [hc] at hrow

/-! ## NotReady (R244) -/

/-- The KEYED, IVLD and KGST checks fail exactly when the state the command needs is missing; KG_GEN is judged on its form
before (R242). -/
theorem fails_notReady_iff {s : State} {i : Instr} (hform : i = .kgGen → s.din = []) :
    Fails s .notReady i ↔ ¬ Ready s i := by
  cases i
  case maSetiv rnd => cases rnd <;> simp [Fails, Ready]
  case kgGen => simp [Fails, Ready, hform]
  case cbcEnc | cbcDec | cfbEnc | ofbEnc => simp [Fails, Ready, Classical.or_iff_not_imp_left]
  all_goals simp [Fails, Ready]

/-- A command answers NotReady when the state it needs is missing. -/
theorem exec_notReady {s : State} {i : Instr} (hform : i = .kgGen → s.din = []) (h : ¬ Ready s i) :
    exec i s = .next (s.respond .notReady []) :=
  exec_of_fails ((fails_notReady_iff hform).mpr h)

/-- Settles O15: NotReady is answered exactly when its check fails. -/
theorem notReadyExactlyWhenStateMissing : Obligations.NotReadyExactlyWhenStateMissing := by
  intro i s hform
  rw [exec_eq_respond_iff_fails (by decide), fails_notReady_iff fun hi => by_contra fun hd => hform ⟨hi, hd⟩]

/-- After reset the flags are clear, so every command but the four set-up commands lacks what it needs (R271). -/
theorem not_ready_reset {i : Instr} (hkey : i ≠ .bcSetkey) (hiv : ∀ b, i ≠ .maSetiv b) (hkg : ∀ k, i ≠ .kgInit k)
    (hst : i ≠ .coreStatus) (d : Bytes) : ¬ Ready { State.reset with din := d } i := by
  cases i
  case bcSetkey => exact absurd rfl hkey
  case maSetiv b => exact absurd rfl (hiv b)
  case kgInit k => exact absurd rfl (hkg k)
  case coreStatus => exact absurd rfl hst
  all_goals simp [Ready]

/-- A command that completes from the reset registers has given the one response OK. -/
theorem Completes.exec_after_reset {u : State} {d out : Bytes} {i : Instr}
    (h : Completes { State.reset with din := d } u out i) :
    ∃ (d out : Bytes) (t : State), exec i { State.reset with din := d } = .next t ∧ t.responses = [⟨.ok, out⟩] := by
  obtain ⟨hr, -, -, -⟩ := h.ports
  exact ⟨d, out, _, exec_of_completes h, congrArg (· ++ [(⟨.ok, out⟩ : Response)]) hr⟩

/-- Settles O12: a set-up command completes on an operand of its length, and no other command is ready. -/
theorem onlySetupCommandsCompleteAfterReset : Obligations.OnlySetupCommandsCompleteAfterReset := by
  refine ⟨fun i hi => ?_, fun i d hkey hiv hkg hst hform => exec_notReady hform (not_ready_reset hkey hiv hkg hst d)⟩
  fin_cases hi
  · exact Completes.exec_after_reset (i := .bcSetkey) (d := List.replicate 16 0) ⟨rfl, rfl, rfl⟩
  · exact Completes.exec_after_reset (i := .maSetiv false) (d := List.replicate 16 0) ⟨rfl, rfl, rfl⟩
  · exact Completes.exec_after_reset (i := .kgInit 16) (d := List.replicate 32 0) ⟨rfl, rfl, rfl, rfl⟩
  · exact Completes.exec_after_reset (i := .coreStatus) (d := []) ⟨rfl, rfl, rfl⟩

/-! ## The order of the checks (R242) -/

/-- MalformedPadding is judged last: the state is ready and every length check has passed. -/
theorem Fails.malformedPadding_last {s : State} {i : Instr} (h : Fails s .malformedPadding i) :
    Ready s i ∧ s.din.length % 16 = 0 ∧ (i = .cfbDec → 16 ≤ s.din.length) := by
  have hi : i ∈ [Instr.ecbDec, .cbcDec, .cfbDec] := h.raises
  fin_cases hi
  · obtain ⟨hk, hm, -⟩ : s.keyed = true ∧ s.din.length % 16 = 0 ∧ _ := by simpa [Fails] using h
    exact ⟨hk, hm, nofun⟩
  · obtain ⟨hk, hv, hm, -⟩ : s.keyed = true ∧ s.ivld = true ∧ s.din.length % 16 = 0 ∧ _ := by simpa [Fails] using h
    exact ⟨⟨hk, hv⟩, hm, nofun⟩
  · obtain ⟨hk, hl, hm, -⟩ : s.keyed = true ∧ 16 ≤ s.din.length ∧ (s.din.length - 16) % 16 = 0 ∧ _ := by
      simpa [Fails] using h
    exact ⟨hk, by omega, fun _ => hl⟩

/-- Settles O16: each clause is the first check that fails. -/
theorem errorPriority : Obligations.ErrorPriority := by
  refine ⟨fun s w => runWord_of_decode_none,
    fun s hd => ⟨exec_of_fails (i := .kgGen) (.inl ⟨rfl, hd⟩), exec_of_fails (i := .coreStatus) ⟨rfl, hd⟩⟩,
    fun s hk i hi => ?_,
    fun s hv i hi => exec_fromChain_notReady hi (.inr hv),
    fun s hd hr => exec_of_fails (i := .kgGen) (.inr ⟨rfl, hd, hr⟩),
    fun s k h => exec_of_fails (i := .kgInit k) (.inl ⟨rfl, h⟩),
    fun s => exec_kgInit_invalidIvLength,
    fun s hk hl => ⟨exec_of_fails (i := .cfbDec) (.inr (.inl ⟨rfl, hk, hl⟩)),
      exec_of_fails (i := .ofbDec) (.inr ⟨rfl, hk, hl⟩)⟩,
    fun s hk hl hm => exec_of_fails (i := .cfbDec) (.inr (.inr (.inl ⟨rfl, hk, hl, by omega⟩))),
    fun i s h => ((exec_eq_respond_iff_fails (by decide)).mp h).malformedPadding_last⟩
  have hform : i = .kgGen → s.din = [] := by
    rintro rfl
    simp at hi
  refine exec_notReady hform ?_
  fin_cases hi <;> simp [Ready, hk]

/-! ## The entropy port, the status read and idling (R247, R248, R251) -/

/-- Settles O8: with nothing pending there is no event to serve. -/
theorem idleChangesNothing : Obligations.IdleChangesNothing := by
  intro s hp
  rw [step, hp]

/-- Settles O26: with an empty DIN the length check passes, so the command draws. -/
theorem silentEntropyPortIsStuck : Obligations.SilentEntropyPortIsStuck := by
  intro s hd ha
  simp [exec, execMaSetiv, hd, State.drawEntropy_silent _ ha]

/-- The STATUS view as a number (R27). -/
theorem statusView_toNat (keyed ivld : Bool) (kgst : KgState) :
    (statusView keyed ivld kgst).toNat = keyed.toNat + 2 * ivld.toNat + 4 * kgst.bits.toNat := by
  cases keyed <;> cases ivld <;> cases kgst <;> rfl

/-- Settles O52: the word is the STATUS view, and each KGST has its number. -/
theorem coreStatusReadsView : Obligations.CoreStatusReadsView := by
  refine ⟨decodeOfEncode .coreStatus rfl, fun s =>
    ⟨fun hd => ⟨statusView s.keyed s.ivld s.kgst, exec_coreStatus hd, ?_⟩,
      fun hd => exec_of_fails (i := .coreStatus) ⟨rfl, hd⟩⟩⟩
  rw [statusView_toNat]
  refine ⟨?_, ?_, ?_⟩
  all_goals
    intro hg
    rw [hg]
    rfl

end Sys2Proof.Machine
end
